-- ==== Sys2Proof/Word.lean ====
section
/-! DEFINITION. The plain words of the ZS218 model: bytes of a frame, and the exact integer division with floor,
ceil and trunc that the manual's position arithmetic is written in (00_scope, Conventions, Arithmetic). -/

namespace Sys2Proof

/-- One data byte of a CAN FD frame. -/
abbrev Byte := BitVec 8

/-- `floor (a / b)` of exact rationals, for a positive `b`. -/
def floorDiv (a b : Int) : Int := a / b

/-- `ceil (a / b)` of exact rationals, for a positive `b`. -/
def ceilDiv (a b : Int) : Int := -((-a) / b)

/-- `trunc (a / b)`: the quotient rounded toward zero. -/
def truncDiv (a b : Int) : Int := a.tdiv b

/-- `x` held to the closed interval `lo..hi`. -/
def clampInt (lo hi x : Int) : Int := max lo (min hi x)

end Sys2Proof
end

