-- ==== Sys2Proof/Syntax.lean ====
section
/-! DEFINITION. The commands the ZS218 takes, one constructor for each row of spec/opcode_table.json. A command is one
whole and indivisible step of the part (95_what_each_step_holds): an event on a pin, on the bus, or of a timer. An
operand is what the outside world brings into the step: levels on input pins, a frame on the bus, the channel, pair or
peer an event concerns. Pin operands are LEVELS (true is high); R176 says which level means what. `vsense` is the level
on the VSENSE pin in units of 10 mV while the step happens: every step in which an axis can begin to drive carries it,
because the SMON samples the supply at once when the first axis does (R134). -/

namespace Sys2Proof

/-- The six roles (R1). -/
inductive Role where
  | fl | fr | m60 | m40 | rl | rr
  deriving DecidableEq, Repr

/-- The three axis slots, which are the drive-channel numbers (R3). -/
inductive Slot where
  | s0 | s1 | s2
  deriving DecidableEq, Repr

/-- Levels on the role strap pins (R1, R176). -/
structure StrapPins where
  role2 : Bool
  role1 : Bool
  role0 : Bool
  deriving DecidableEq, Repr

/-- Levels on the seat switch inputs: two jog switches per drive channel, and ONE (R144, R176). -/
structure SwitchPins where
  jup0 : Bool
  jdn0 : Bool
  jup1 : Bool
  jdn1 : Bool
  jup2 : Bool
  jdn2 : Bool
  one : Bool
  deriving DecidableEq, Repr

/-- Levels on the occupancy inputs (R144, R176). -/
structure OccupancyPins where
  mat : Bool
  buckle : Bool
  deriving DecidableEq, Repr

/-- A frame as another node puts it on the bus: whether it is a CAN FD data frame with an 11-bit identifier, that
identifier, and its data bytes (R146, R148). -/
structure BusFrame where
  fdData11 : Bool
  ident : BitVec 11
  data : List Byte
  deriving DecidableEq, Repr

/-- The commands: one constructor per row of the table of operations and events. -/
inductive Instr where
  /-- RESET_RELEASE (R163): release of reset; the straps and the first samples are read. -/
  | resetRelease (straps : StrapPins) (vsense : Nat) (switches : SwitchPins) (occ : OccupancyPins)
  /-- RESET_ASSERTION (R161). -/
  | resetAssertion
  /-- SYNC_ENTRY (R168). -/
  | syncEntry
  /-- SYNC_TIMER_EXPIRY (R170). -/
  | syncTimerExpiry
  /-- OWN_CLAIM_ECHO (R39). -/
  | ownClaimEcho (vsense : Nat)
  /-- PEER_CLAIM (R40). -/
  | peerClaim (vsense : Nat)
  /-- OWN_CEDE_ECHO (R41). -/
  | ownCedeEcho (vsense : Nat)
  /-- PEER_CEDE (R42). -/
  | peerCede (vsense : Nat)
  /-- OWN_DECLINE_ECHO (R43). -/
  | ownDeclineEcho (vsense : Nat)
  /-- PEER_DECLINE (R44). -/
  | peerDecline (vsense : Nat)
  /-- OWN_STAKE_ECHO (R45). -/
  | ownStakeEcho (vsense : Nat)
  /-- PEER_STAKE (R46). -/
  | peerStake (vsense : Nat)
  /-- STATUS_TAKEN (R65). -/
  | statusTaken (vsense : Nat)
  /-- VEHICLE_TAKEN (R82). -/
  | vehicleTaken (vsense : Nat)
  /-- SCENE_TAKEN (R115). -/
  | sceneTaken (vsense : Nat)
  /-- STOP_TAKEN (R124). -/
  | stopTaken (vsense : Nat)
  /-- LEARN_TAKEN (R129). -/
  | learnTaken (vsense : Nat)
  /-- RESULT_TAKEN (R149). -/
  | resultTaken
  /-- FRAME_RECEIVED (R149): a frame another node sent completes on the bus. -/
  | frameReceived (f : BusFrame)
  /-- TRANSMISSION_ATTEMPT (R147): the bus is idle and the interface may start an attempt. -/
  | transmissionAttempt
  /-- ARBITRATION_LOST (R147). -/
  | arbitrationLost
  /-- ATTEMPT_ERROR (R147): `noAck` when the error is that no node acknowledged the frame. -/
  | attemptError (noAck : Bool)
  /-- FRAME_COMPLETED (R147). -/
  | frameCompleted
  /-- BUS_OFF_TIMER_EXPIRY (R157). -/
  | busOffTimerExpiry (vsense : Nat)
  /-- GENERAL_SLOT_ASSIGNMENT (R152). -/
  | generalSlotAssignment
  /-- STATUS_TIMER_EXPIRY (R142). -/
  | statusTimerExpiry
  /-- EXPECTANCY_TIMER_EXPIRY (R66), of one peer's record. -/
  | expectancyTimerExpiry (peer : Role) (vsense : Nat)
  /-- CLASH_WINDOW_EXPIRY (R77). -/
  | clashWindowExpiry
  /-- HOLD_TIMER_EXPIRY (R83). -/
  | holdTimerExpiry (vsense : Nat)
  /-- WAIT_TIMER_EXPIRY (R52), of one pair's view. -/
  | waitTimerExpiry (pair : Nat) (vsense : Nat)
  /-- CONTROL_INTERVAL (R94). -/
  | controlInterval (vsense : Nat)
  /-- HALL_PULSE (R88), on one channel's hall input. -/
  | hallPulse (slot : Slot) (vsense : Nat)
  /-- BRAKE_TIMER_EXPIRY (R91). -/
  | brakeTimerExpiry (slot : Slot) (vsense : Nat)
  /-- STALL_TIMER_EXPIRY (R99). -/
  | stallTimerExpiry (slot : Slot) (vsense : Nat)
  /-- BLANKING_TIMER_EXPIRY (R99). -/
  | blankingTimerExpiry (slot : Slot) (vsense : Nat)
  /-- JOB_TIMER_EXPIRY (R103). -/
  | jobTimerExpiry (slot : Slot) (vsense : Nat)
  /-- CALIBRATION_WRITE_COMPLETION (R107). -/
  | calibrationWriteCompletion (slot : Slot) (vsense : Nat)
  /-- QUIET_TIMER_EXPIRY (R141). -/
  | quietTimerExpiry
  /-- SAMPLE_TIMER_EXPIRY (R134). -/
  | sampleTimerExpiry (vsense : Nat)
  /-- SWITCH_SAMPLE (R144). -/
  | switchSample (pins : SwitchPins) (vsense : Nat)
  /-- OCCUPANCY_SAMPLE (R145). -/
  | occupancySample (pins : OccupancyPins) (vsense : Nat)
  /-- ALWAYS_ON_SUPPLY_LOSS (R162). -/
  | alwaysOnSupplyLoss
  deriving DecidableEq, Repr

end Sys2Proof
end

