-- ==== Sys2Proof/WellFormed.lean ====
section
/-! DEFINITION. Which commands are well formed: a level on VSENSE that the pin accepts (0 to 3.6 V), the data of a frame that
CAN FD can carry, a pair number of the clearance table. `exec` gives every command its meaning, well formed or not; the
checks say which commands the outside world can send. -/

namespace Sys2Proof

/-- The highest level VSENSE accepts, in 10 mV units (chapter 11, Electrical characteristics). -/
def vsenseMax : Nat := 360

/-- A level that VSENSE accepts. -/
def vsenseOk (v : Nat) : Bool := decide (v ≤ vsenseMax)

/-- A frame CAN FD can carry: at most 64 data bytes. -/
def BusFrame.ok (f : BusFrame) : Bool := decide (f.data.length ≤ 64)

/-- The capacity of the clearance table (R10). -/
def pairLimit : Nat := 24

/-- Whether a command is well formed. -/
def Instr.wf : Instr → Bool
  | .resetRelease _ v _ _ => vsenseOk v
  | .resetAssertion => true
  | .syncEntry => true
  | .syncTimerExpiry => true
  | .ownClaimEcho v => vsenseOk v
  | .peerClaim v => vsenseOk v
  | .ownCedeEcho v => vsenseOk v
  | .peerCede v => vsenseOk v
  | .ownDeclineEcho v => vsenseOk v
  | .peerDecline v => vsenseOk v
  | .ownStakeEcho v => vsenseOk v
  | .peerStake v => vsenseOk v
  | .statusTaken v => vsenseOk v
  | .vehicleTaken v => vsenseOk v
  | .sceneTaken v => vsenseOk v
  | .stopTaken v => vsenseOk v
  | .learnTaken v => vsenseOk v
  | .resultTaken => true
  | .frameReceived f => f.ok
  | .transmissionAttempt => true
  | .arbitrationLost => true
  | .attemptError _ => true
  | .frameCompleted => true
  | .busOffTimerExpiry v => vsenseOk v
  | .generalSlotAssignment => true
  | .statusTimerExpiry => true
  | .expectancyTimerExpiry _ v => vsenseOk v
  | .clashWindowExpiry => true
  | .holdTimerExpiry v => vsenseOk v
  | .waitTimerExpiry p v => decide (p < pairLimit) && vsenseOk v
  | .controlInterval v => vsenseOk v
  | .hallPulse _ v => vsenseOk v
  | .brakeTimerExpiry _ v => vsenseOk v
  | .stallTimerExpiry _ v => vsenseOk v
  | .blankingTimerExpiry _ v => vsenseOk v
  | .jobTimerExpiry _ v => vsenseOk v
  | .calibrationWriteCompletion _ v => vsenseOk v
  | .quietTimerExpiry => true
  | .sampleTimerExpiry v => vsenseOk v
  | .switchSample _ v => vsenseOk v
  | .occupancySample _ v => vsenseOk v
  | .alwaysOnSupplyLoss => true

/-- The level on VSENSE a command carries, if it carries one. -/
def Instr.vsense? : Instr → Option Nat
  | .resetRelease _ v _ _ => some v
  | .resetAssertion => none
  | .syncEntry => none
  | .syncTimerExpiry => none
  | .ownClaimEcho v => some v
  | .peerClaim v => some v
  | .ownCedeEcho v => some v
  | .peerCede v => some v
  | .ownDeclineEcho v => some v
  | .peerDecline v => some v
  | .ownStakeEcho v => some v
  | .peerStake v => some v
  | .statusTaken v => some v
  | .vehicleTaken v => some v
  | .sceneTaken v => some v
  | .stopTaken v => some v
  | .learnTaken v => some v
  | .resultTaken => none
  | .frameReceived _ => none
  | .transmissionAttempt => none
  | .arbitrationLost => none
  | .attemptError _ => none
  | .frameCompleted => none
  | .busOffTimerExpiry v => some v
  | .generalSlotAssignment => none
  | .statusTimerExpiry => none
  | .expectancyTimerExpiry _ v => some v
  | .clashWindowExpiry => none
  | .holdTimerExpiry v => some v
  | .waitTimerExpiry _ v => some v
  | .controlInterval v => some v
  | .hallPulse _ v => some v
  | .brakeTimerExpiry _ v => some v
  | .stallTimerExpiry _ v => some v
  | .blankingTimerExpiry _ v => some v
  | .jobTimerExpiry _ v => some v
  | .calibrationWriteCompletion _ v => some v
  | .quietTimerExpiry => none
  | .sampleTimerExpiry v => some v
  | .switchSample _ v => some v
  | .occupancySample _ v => some v
  | .alwaysOnSupplyLoss => none

end Sys2Proof
end

