-- ==== Sys2Proof/Decode.lean ====
section
/-! DEFINITION. The command a word of the opcode table spells. The table gives none of its rows any bits: a command is an
event on a pin, on the bus or of a timer, and no word spells one. The frames of the bus, which do have an encoding, are read
in Machine/Frames.lean. -/

namespace Sys2Proof

/-- The command a word spells by the table's bits: none, for every row (notes/assumptions/1.md). -/
def decodeTableWord (_nbits _w : Nat) : Option Instr := none

end Sys2Proof
end

