-- ==== Sys2Proof/Config.lean ====
section
/-! DEFINITION. The fixed quantities of the part, as the tables of quantities at the head of each chapter give them, in
the units the manual uses (milliseconds, counts, tenths of a volt). The layout ROM stands in Machine/Layout.lean. The
manual leaves no result of a step an undefined value, so no free value stands here (NOTES.md says which orders and
conventions were chosen). -/

namespace Sys2Proof.Config

/-- Wait timer of a view (R52). -/
def waitTime : Nat := 8000
/-- Status period in ACTIVE and in QUIET (R142). -/
def statusActive : Nat := 20
def statusQuiet : Nat := 100
/-- Expectancy after a STATUS advertising ACTIVE and QUIET: 3/2 of the advertised period (R66). -/
def expectActive : Nat := 30
def expectQuiet : Nat := 150
/-- Role clash window (R77). -/
def clashTime : Nat := 1000
/-- Gateway record hold time (R82). -/
def holdTime : Nat := 500
/-- SYNC timeout (R168). -/
def syncTime : Nat := 500
/-- Brake period (R90). -/
def brakeTime : Nat := 50
/-- Stall time and stall blanking (R99). -/
def stallTime : Nat := 120
def blankingTime : Nat := 200
/-- Start duty on each entry into DRIVING (R89). -/
def startDuty : Int := 300
/-- Close intervals to enter TRACK (R96). -/
def closeToTrack : Nat := 3
/-- Relief run length in counts (R101). -/
def reliefLength : Nat := 20
/-- Highest count an ADU holds (R88). -/
def countMax : Nat := 8191
/-- Valid spans (R5). -/
def spanMin : Nat := 200
def spanMax : Nat := 8000
/-- Calibration write (R165). -/
def calibrationTime : Nat := 25
/-- Quiet timer (R139). -/
def quietTime : Nat := 30000
/-- Supply sample periods: driving, ACTIVE at rest, QUIET at rest (R134). -/
def sampleDriving : Nat := 10
def sampleActive : Nat := 200
def sampleQuiet : Nat := 1000
/-- Occupancy sample periods (R145). -/
def occupancyActive : Nat := 50
def occupancyQuiet : Nat := 500
/-- Bus-off time (R156). -/
def busOffTime : Nat := 200
/-- Capacities: receive queue (R149), general slots (R151), outgoing list (R111), slot window (R67), crossing list (R30),
clearance list (R12). -/
def rxCapacity : Nat := 8
def generalCapacity : Nat := 5
def outgoingCapacity : Nat := 4
def windowSize : Nat := 5
def crossingMax : Nat := 4
def clearanceMax : Nat := 10

end Sys2Proof.Config
end

