-- ==== Sys2Proof/Machine/State.lean ====
section
/-! DEFINITION. The state of one ZS218: every register, record, queue, timer, flag and mode the manual gives the ten
blocks, as plain data, and the value of each while reset is held. A timer is `none` when stopped and `some d` when running
with duration `d` milliseconds; the passing of time is outside the model, and a timer's expiry is a command
(notes/assumptions/2.md). -/

namespace Sys2Proof.Machine

/-- A timer: stopped, or running with a duration in milliseconds (00_scope, Conventions, Timers). -/
abbrev Timer := Option Nat

/-- One value for each axis slot. -/
structure PerSlot (α : Type) where
  s0 : α
  s1 : α
  s2 : α
  deriving DecidableEq, Repr

/-- The states of the station (R160), with reset held as the fifth. -/
inductive Station where
  | held | start | sync | run | standstill
  deriving DecidableEq, Repr

/-- The four axis kinds (R4). -/
inductive Kind where
  | slide | back | tip | stow
  deriving DecidableEq, Repr

/-- Down is toward home, up is away from it (R4). -/
inductive Dir where
  | down | up
  deriving DecidableEq, Repr

/-- A closed band of permille positions x1..x2 (R10). -/
structure Band where
  x1 : Nat
  x2 : Nat
  deriving DecidableEq, Repr

/-- A closed interval of permille positions (R17, R20). -/
structure Interval where
  low : Int
  high : Int
  deriving DecidableEq, Repr

/-- What the CLU hands an ADU: a count range (R21), or the open or frozen condition of an axis without one (R25). -/
inductive Envelope where
  | limits (lo hi : Int)
  | opened
  | frozen
  deriving DecidableEq, Repr

/-- A frame as it stands on the bus: identifier and data bytes (R146, R159). -/
structure Frame where
  ident : BitVec 11
  data : List Byte
  deriving DecidableEq, Repr

/-- A frame of the receive queue with its echo mark (R149). -/
structure RxFrame where
  frame : Frame
  echo : Bool
  deriving DecidableEq, Repr

/-- Standings of a claim (R47). -/
inductive Standing where
  | scene | jog | yield | service
  deriving DecidableEq, Repr

/-- Reasons of a DECLINE (section 3.2). -/
inductive Reason where
  | pinned | occupied | vehicle | supply | fault | standing | chain
  deriving DecidableEq, Repr

/-- The four passage frames (section 3.2). -/
inductive PassageKind where
  | claim | cede | stake | decline
  deriving DecidableEq, Repr

/-- View states: the eight of a peer pair, and OPEN, HELD-A, HELD-B, CONFLICT of a self pair (R35, R36, R62). -/
inductive ViewState where
  | opened | pending | own | ownWait | peer | queued | barred | conflict | heldA | heldB
  deriving DecidableEq, Repr

/-- Axis A or axis B of a self pair (R12). -/
inductive SelfAxis where
  | a | b
  deriving DecidableEq, Repr

/-- The second axis of a pair on the clearance list: a peer's, or another of this station (R11, R12). -/
inductive OtherAxis where
  | peer (role : Role) (kind : Kind) (band : Band)
  | self (slot : Slot) (band : Band)
  deriving DecidableEq, Repr

/-- One view record (R35). `slot` and `band` are the own axis; for a self pair they are axis A and `other` is axis B. -/
structure View where
  pair : Nat
  slot : Slot
  band : Band
  other : OtherAxis
  state : ViewState
  waitTimer : Timer
  reconcile : Nat
  waiter : Option Standing
  waiting : Option SelfAxis
  inFlight : Option PassageKind
  cedeDue : Bool
  stakeDue : Bool
  /-- Self pair: the claim entered by axis A, and by axis B, since the last control interval (R62). -/
  claimA : Option Standing
  claimB : Option Standing
  /-- The present waiter has had its yield (R57: it is not evaluated again for it): a YIELD job has been asked for on its behalf, or one
  for this pair has ended while it waited. -/
  yieldAsked : Bool
  deriving DecidableEq, Repr

/-- A frame of a pair that has fallen due and is in no general slot yet: with `frame` none it waits in the pair's record, since it cannot
be handed over (R38), and otherwise it has been handed over, and that frame waits with the CLU for a free general slot (R152). -/
structure Due where
  pair : Nat
  kind : PassageKind
  frame : Option Frame
  deriving DecidableEq, Repr

/-- The clearance unit: the clearance list's view records in pair-number order, the envelope of each axis, and all that has fallen due
and is in no general slot, in the order in which it fell due (R35, R21, R38, R152): the CEDEs and STAKEs due in the records, the claims
that bus-off holds back, and the passage frames that wait for a free general slot. -/
structure Clu where
  views : List View
  envelopes : PerSlot Envelope
  due : List Due
  deriving DecidableEq, Repr

/-- Presence states of a peer record (R64). -/
inductive Presence where
  | absent | acquiring | present | lost
  deriving DecidableEq, Repr

/-- Outcomes of the slot window (R67). -/
inductive Heard where
  | hit | miss
  deriving DecidableEq, Repr

/-- Modes of the AMON (R139), advertised in STATUS. -/
inductive Mode where
  | active | quiet
  deriving DecidableEq, Repr

/-- One peer record (R64). -/
structure PeerRec where
  role : Role
  state : Presence
  origin : Presence
  lastSeq : Nat
  window : List Heard
  expectancy : Timer
  mode : Mode
  missSet : BitVec 6
  holdSet : BitVec 24
  intervals : PerSlot Interval
  missesMeCount : Nat
  missesMe : Bool
  forced : Bool
  deriving DecidableEq, Repr

/-- Speed classes of the gateway record (R82). -/
inductive SpeedClass where
  | still | creep | moving
  deriving DecidableEq, Repr

/-- The gateway record (R82). -/
structure Gateway where
  speed : SpeedClass
  park : Bool
  known : Bool
  hold : Timer
  deriving DecidableEq, Repr

/-- The peer monitor (R64, R77, R82, R142). -/
structure Pmon where
  peers : List PeerRec
  gateway : Gateway
  clashWindow : Timer
  clashFlag : Bool
  seq : Nat
  statusTimer : Timer
  deriving DecidableEq, Repr

/-- Axis states (R86), with NONE for a slot that holds no axis (R3). -/
inductive AxisState where
  | noAxis | idle | driving | braking | holding | fault
  deriving DecidableEq, Repr

/-- Modes of the speed loop (R96). -/
inductive LoopMode where
  | seek | track
  deriving DecidableEq, Repr

/-- The speed of a run: a speed code, or creep (R9). -/
inductive Speed where
  | code (n : Nat)
  | creep
  deriving DecidableEq, Repr

/-- The origin of a run (R89). -/
inductive RunOrigin where
  | scene | jog | yield | reference | learn | relief
  deriving DecidableEq, Repr

/-- A run (R89). `secondLeg` tells the legs of a LEARN run apart (R106); `pulsesLeft` is the rest of a relief run on an
axis without a count envelope, which ends after 20 pulses (R104). -/
structure Run where
  origin : RunOrigin
  dir : Dir
  target : Option Int
  speed : Speed
  secondLeg : Bool
  pulsesLeft : Option Nat
  deriving DecidableEq, Repr

/-- Outcome codes of a job or slot (R132), a decline with its reason. -/
inductive JobOutcome where
  | done | blockedLimit | declined (r : Reason) | wait | peerLost | unheard | obstructed | timeout | stop | superseded
  | user | vehicle | occupied | supply | disabled | fault | conflict | learnFail | noJob
  deriving DecidableEq, Repr

/-- What follows at the end of the brake period (R91): nothing, the test of R27 on the present run, the same test on a present
run that was taken in this brake period and has not driven (R89), a relief run (R100), the end of the run with an outcome, the end
of a reference leg (R105), the second learn leg, or the report of the raw count (R106). -/
inductive AfterBrake where
  | idle | retest | joined | relief | ended (o : JobOutcome) | refDone | secondLeg | rawCount (n : Nat)
  deriving DecidableEq, Repr

/-- Pulses counted in the present control interval and in the three before it (R85, R95). -/
structure PulseHistory where
  p0 : Nat
  p1 : Nat
  p2 : Nat
  p3 : Nat
  deriving DecidableEq, Repr

/-- One drive record (R85). `handed` is a run the MVC has handed and the ADU takes at the next control interval (R89);
`stallHeld` is a stall-timer expiry held while blanking runs (R99); `stop` is the stop point last computed (R26). -/
structure Drive where
  axis : AxisState
  referenced : Bool
  disabled : Bool
  count : Nat
  span : Nat
  dir : Dir
  duty : Int
  brake : Bool
  loop : LoopMode
  close : Nat
  lock : Bool
  vset : Int
  pulses : PulseHistory
  brakeTimer : Timer
  stallTimer : Timer
  blankingTimer : Timer
  jobTimer : Timer
  run : Option Run
  waitingRun : Option Run
  handed : Option Run
  afterBrake : AfterBrake
  stallHeld : Bool
  stop : Option Int
  deriving DecidableEq, Repr

/-- Why an entry of a crossing list failed (R49, R114). -/
inductive Failure where
  | declined (r : Reason) | wait | peerLost | unheard | conflict
  deriving DecidableEq, Repr

/-- Status of a claim entry (R109). -/
inductive EntryStatus where
  | needed | claimed | held | passed | failed (f : Failure)
  deriving DecidableEq, Repr

/-- A claim entry: a pair and its status (R109). -/
structure Entry where
  pair : Nat
  status : EntryStatus
  deriving DecidableEq, Repr

/-- The origin of a job (R109). -/
inductive JobOrigin where
  | scene (id : Nat) | jog | yield (pair : Nat) | learn
  deriving DecidableEq, Repr

/-- The present run of a job (R109). -/
inductive PresentRun where
  | main | reference | relief
  deriving DecidableEq, Repr

/-- Which entry of the scene record a job reports to (R110, R113). -/
inductive Member where
  | noScene | active | ending
  deriving DecidableEq, Repr

/-- One job record (R109). `handed` says that the job's run has been handed to its ADU; `cause` is the outcome of the end
request that has been sent for it (R113). -/
structure Job where
  active : Bool
  origin : JobOrigin
  present : PresentRun
  permille : Option Nat
  requested : Option Int
  target : Option Int
  dir : Dir
  speed : Speed
  standing : Standing
  entries : List Entry
  firstFailure : Option Failure
  outcome : Option JobOutcome
  member : Member
  handed : Bool
  cause : Option JobOutcome
  deriving DecidableEq, Repr

/-- What a job that waits for the old job on its axis to end will be (R116). A scene's carries its target in permille, the
count it was converted to at loading, and whether its present run is REFERENCE, as on an axis that was UNREFERENCED at loading
(R118): the target is then converted again after that run (R32). -/
inductive QueuedOrigin where
  | scene (id : Nat) (permille : Nat) (count : Int) (reference : Bool) | jog (dir : Dir) | learn
  deriving DecidableEq, Repr

/-- A job that starts once the old job on its axis has ended (R109, R116), with the cause that ended it meanwhile. -/
structure QueuedStart where
  origin : QueuedOrigin
  cause : Option JobOutcome
  deriving DecidableEq, Repr

/-- A slot outcome of the scene record (R110). -/
inductive SlotOutcome where
  | absent | pending | ended (o : JobOutcome)
  deriving DecidableEq, Repr

/-- A scene id, or LEARN (R110). -/
inductive SceneId where
  | scene (id : Nat) | learn
  deriving DecidableEq, Repr

/-- The active fields of the scene record, or one of its ending entries (R110). -/
structure SceneEntry where
  id : SceneId
  requester : Nat
  slots : PerSlot SlotOutcome
  learnSlot : Option Slot
  deriving DecidableEq, Repr

/-- Jog states (R121). -/
inductive JogState where
  | neutral | up | down
  deriving DecidableEq, Repr

/-- The move controller (R109 to R111, R121). -/
structure Mvc where
  jobs : PerSlot Job
  queued : PerSlot (Option QueuedStart)
  active : Option SceneEntry
  ending : List SceneEntry
  pins : PerSlot Bool
  outgoing : List Frame
  jogs : PerSlot JogState
  deriving DecidableEq, Repr

/-- Supply levels (R133). -/
inductive Level where
  | unknown | ok | low | critical
  deriving DecidableEq, Repr

/-- The supply monitor (R133). -/
structure Smon where
  level : Level
  recovery : Nat
  driveSet : PerSlot Bool
  timer : Timer
  deriving DecidableEq, Repr

/-- The activity monitor (R139). `activityDue` is the model's own: an activity event has been reported in the present step
and is taken at its end (R143: after the event has been taken by its own block). It is clear between steps. -/
structure Amon where
  mode : Mode
  quiet : Timer
  activityDue : Bool
  deriving DecidableEq, Repr

/-- A debounced input: its state and its newest raw samples, newest first (R144). -/
structure Debounce where
  stable : Bool
  samples : List Bool
  deriving DecidableEq, Repr

/-- The local input unit (R144, R145). -/
structure Liu where
  up : PerSlot Debounce
  down : PerSlot Debounce
  one : Debounce
  occupancy : Debounce
  occupancyTimer : Timer
  deriving DecidableEq, Repr

/-- The seat bus interface (R147, R149, R151, R154, R156). `attempt` is the frame whose attempt is in progress. -/
structure Bif where
  rx : List RxFrame
  status : Option Frame
  statusBeside : Option Frame
  general : List Frame
  attempt : Option Frame
  errors : Nat
  busOff : Timer
  deriving DecidableEq, Repr

/-- One retained record (R166). -/
structure Retained where
  count : Nat
  referenced : Bool
  deriving DecidableEq, Repr

/-- One calibration record (R164). -/
structure CalRecord where
  span : Nat
  role : Option Role
  marker : Bool
  deriving DecidableEq, Repr

/-- The retained and calibration store (R162, R164, R165). `writing` is the raw count of a calibration write in progress
and `writeTimer` its 25 ms. -/
structure Rcs where
  marker : Bool
  role : Option Role
  retained : PerSlot Retained
  calibration : PerSlot CalRecord
  writing : PerSlot (Option Nat)
  writeTimer : PerSlot Timer
  deriving DecidableEq, Repr

/-- The whole station, and the queue of commands that wait for it. `vsense` is the level on the VSENSE input (10 mV units)
as the command in hand presents it (R176). -/
structure State where
  station : Station
  role : Option Role
  syncTimer : Timer
  vsense : Nat
  clu : Clu
  pmon : Pmon
  adu : PerSlot Drive
  mvc : Mvc
  smon : Smon
  amon : Amon
  liu : Liu
  bus : Bif
  rcs : Rcs
  pending : List Instr
  deriving DecidableEq, Repr

/-- Faults. There is none: no rule of the manual stops the part, and no step of this block is without an effect. -/
inductive Fault where
  deriving DecidableEq, Repr

/-- Refusals. -/
inductive Refusal where
  /-- Raised by `exec` for a command that has no meaning yet; safe, since nothing is claimed of it. -/
  | notModelled (mnemonic : String)
  deriving DecidableEq, Repr

/-- The same value in every slot. -/
def PerSlot.all {α : Type} (x : α) : PerSlot α := ⟨x, x, x⟩

/-- A drive record with no axis, as every channel stands while reset is held (R3, R85, R161). -/
def Drive.blank : Drive :=
  { axis := .noAxis, referenced := false, disabled := false, count := 0, span := 0, dir := .down, duty := 0, brake := true,
    loop := .seek, close := 0, lock := false, vset := 0, pulses := ⟨0, 0, 0, 0⟩, brakeTimer := none, stallTimer := none,
    blankingTimer := none, jobTimer := none, run := none, waitingRun := none, handed := none, afterBrake := .idle,
    stallHeld := false, stop := none }

/-- A free job record with no outcome (R109). -/
def Job.free : Job :=
  { active := false, origin := .jog, present := .main, permille := none, requested := none, target := none, dir := .down,
    speed := .creep, standing := .jog, entries := [], firstFailure := none, outcome := none, member := .noScene,
    handed := false, cause := none }

/-- The gateway record after each start (R82). -/
def Gateway.initial : Gateway := { speed := .moving, park := false, known := false, hold := none }

/-- A released input with no samples held (R144). -/
def Debounce.initial : Debounce := { stable := false, samples := [] }

/-- The store of a part that has never run: no validity marker, nothing calibrated (R162, R164). -/
def Rcs.initial : Rcs :=
  { marker := false, role := none, retained := .all ⟨0, false⟩, calibration := .all ⟨0, none, false⟩,
    writing := .all none, writeTimer := .all none }

/-- The station while reset is held, over the store `r` and with the commands `q` waiting (R161: every block's state is
lost except the two stores). -/
def State.underReset (r : Rcs) (q : List Instr) : State :=
  { station := .held, role := none, syncTimer := none, vsense := 0,
    clu := { views := [], envelopes := .all .frozen, due := [] },
    pmon := { peers := [], gateway := .initial, clashWindow := none, clashFlag := false, seq := 0, statusTimer := none },
    adu := .all .blank,
    mvc := { jobs := .all .free, queued := .all none, active := none, ending := [], pins := .all false, outgoing := [],
             jogs := .all .neutral },
    smon := { level := .unknown, recovery := 0, driveSet := .all false, timer := none },
    amon := { mode := .active, quiet := none, activityDue := false },
    liu := { up := .all .initial, down := .all .initial, one := .initial, occupancy := .initial, occupancyTimer := none },
    bus := { rx := [], status := none, statusBeside := none, general := [], attempt := none, errors := 0, busOff := none },
    rcs := r, pending := q }

/-- The machine right after power-on: reset held, over the store of a part that has never run. -/
def State.reset : State := State.underReset Rcs.initial []

end Sys2Proof.Machine
end

