-- ==== Sys2Proof/Machine/Layout.lean ====
section
/-! DEFINITION. The layout ROM (chapter 1): roles and strap codes, the axis kinds of each role, the axis parameter table,
the clearance table, the scene table and the one-touch table. -/

namespace Sys2Proof.Machine

/-- The six roles in role order (R1). -/
def allRoles : List Role := [.fl, .fr, .m60, .m40, .rl, .rr]

/-- The slots in slot order (R3). -/
def allSlots : List Slot := [.s0, .s1, .s2]

/-- The role code, which is also the sender code (R1, R2). -/
def roleCode : Role → Nat
  | .fl => 0 | .fr => 1 | .m60 => 2 | .m40 => 3 | .rl => 4 | .rr => 5

/-- The role of a code; 6 and 7 are not roles (R1). -/
def roleOf : Nat → Option Role
  | 0 => some .fl | 1 => some .fr | 2 => some .m60 | 3 => some .m40 | 4 => some .rl | 5 => some .rr
  | _ => none

/-- The sender code of the gateway (R2). -/
def gatewayCode : Nat := 7

/-- The number of a slot (R3). -/
def slotIndex : Slot → Nat
  | .s0 => 0 | .s1 => 1 | .s2 => 2

/-- The axis kind in each slot of each role; `none` is a slot with no axis (R3). -/
def kindOf : Role → Slot → Option Kind
  | .fl, .s0 | .fr, .s0 => some .slide
  | .fl, .s1 | .fr, .s1 => some .back
  | .fl, .s2 | .fr, .s2 => none
  | .m60, .s0 | .m40, .s0 => some .slide
  | .m60, .s1 | .m40, .s1 => some .back
  | .m60, .s2 | .m40, .s2 => some .tip
  | .rl, .s0 | .rr, .s0 => some .back
  | .rl, .s1 | .rr, .s1 => some .stow
  | .rl, .s2 | .rr, .s2 => none

/-- The slot in which a role carries an axis kind (R3). -/
def slotOfKind (r : Role) (k : Kind) : Option Slot := allSlots.find? (fun sl => kindOf r sl == some k)

/-- One row of the axis parameter table (R7); `seated` is the upper limit u of the seated range. -/
structure AxisParams where
  vmax : Int
  creep : Int
  coast : Int
  margin : Int
  slope : Int
  seated : Nat
  deriving DecidableEq, Repr

/-- The axis parameter table (R7). -/
def params : Kind → AxisParams
  | .slide => { vmax := 400, creep := 50, coast := 6, margin := 10, slope := 3, seated := 1000 }
  | .back => { vmax := 320, creep := 40, coast := 5, margin := 8, slope := 3, seated := 450 }
  | .tip => { vmax := 240, creep := 30, coast := 4, margin := 6, slope := 2, seated := 50 }
  | .stow => { vmax := 200, creep := 25, coast := 4, margin := 6, slope := 2, seated := 50 }

/-- Whether the seated range restricts an axis of this kind: BACK, TIP and STOW (R8, R24). -/
def seatedKind : Kind → Bool
  | .slide => false
  | .back | .tip | .stow => true

/-- The cruise speed of a speed code, a code of 0 being taken as code 1 (R9). -/
def cruise (k : Kind) (code : Nat) : Int := floorDiv ((params k).vmax * (max code 1 + 1)) 4

/-- One axis of a clearance table entry, with its band (R10). -/
structure PairSide where
  role : Role
  kind : Kind
  band : Band
  deriving DecidableEq, Repr

/-- One occupied entry of the clearance table (R10). -/
structure PairRow where
  pair : Nat
  a : PairSide
  b : PairSide
  deriving DecidableEq, Repr

/-- The clearance table (R10). Entries 14 to 23 are vacant: they name no axes and so have no row. -/
def clearanceTable : List PairRow :=
  [ ⟨0, ⟨.fl, .back, ⟨0, 150⟩⟩, ⟨.m60, .slide, ⟨0, 120⟩⟩⟩,
    ⟨1, ⟨.fr, .back, ⟨0, 150⟩⟩, ⟨.m40, .slide, ⟨0, 120⟩⟩⟩,
    ⟨2, ⟨.fl, .slide, ⟨850, 1000⟩⟩, ⟨.m60, .back, ⟨780, 1000⟩⟩⟩,
    ⟨3, ⟨.fr, .slide, ⟨850, 1000⟩⟩, ⟨.m40, .back, ⟨780, 1000⟩⟩⟩,
    ⟨4, ⟨.m60, .slide, ⟨820, 1000⟩⟩, ⟨.rl, .back, ⟨600, 1000⟩⟩⟩,
    ⟨5, ⟨.m40, .slide, ⟨820, 1000⟩⟩, ⟨.rr, .back, ⟨600, 1000⟩⟩⟩,
    ⟨6, ⟨.m60, .back, ⟨0, 100⟩⟩, ⟨.rl, .stow, ⟨200, 1000⟩⟩⟩,
    ⟨7, ⟨.m40, .back, ⟨0, 100⟩⟩, ⟨.rr, .stow, ⟨200, 1000⟩⟩⟩,
    ⟨8, ⟨.m60, .back, ⟨600, 1000⟩⟩, ⟨.m60, .tip, ⟨300, 1000⟩⟩⟩,
    ⟨9, ⟨.m40, .back, ⟨600, 1000⟩⟩, ⟨.m40, .tip, ⟨300, 1000⟩⟩⟩,
    ⟨10, ⟨.rl, .back, ⟨0, 850⟩⟩, ⟨.rl, .stow, ⟨100, 1000⟩⟩⟩,
    ⟨11, ⟨.rr, .back, ⟨0, 850⟩⟩, ⟨.rr, .stow, ⟨100, 1000⟩⟩⟩,
    ⟨12, ⟨.m60, .tip, ⟨300, 1000⟩⟩, ⟨.fl, .back, ⟨0, 200⟩⟩⟩,
    ⟨13, ⟨.m40, .tip, ⟨300, 1000⟩⟩, ⟨.fr, .back, ⟨0, 200⟩⟩⟩ ]

/-- A view record as it is created: BARRED, with timers stopped, counters 0, nothing waiting, in flight or due (R12, R35). -/
def newView (pair : Nat) (slot : Slot) (band : Band) (other : OtherAxis) : View :=
  { pair, slot, band, other, state := .barred, waitTimer := none, reconcile := 0, waiter := none, waiting := none,
    inFlight := none, cedeDue := false, stakeDue := false, claimA := none, claimB := none, yieldAsked := false }

/-- The view record a role creates from a clearance table entry, if either axis is its own (R12). -/
def viewOfRow (r : Role) (row : PairRow) : Option View :=
  if row.a.role = r then
    match slotOfKind r row.a.kind with
    | none => none
    | some sa =>
      if row.b.role = r then
        match slotOfKind r row.b.kind with
        | none => none
        | some sb => some (newView row.pair sa row.a.band (.self sb row.b.band))
      else some (newView row.pair sa row.a.band (.peer row.b.role row.b.kind row.b.band))
  else if row.b.role = r then
    match slotOfKind r row.b.kind with
    | none => none
    | some sb => some (newView row.pair sb row.b.band (.peer row.a.role row.a.kind row.a.band))
  else none

/-- The clearance list of a role, as freshly extracted: at most 10 entries, in pair-number order (R12). -/
def clearanceList (r : Role) : List View := (clearanceTable.filterMap (viewOfRow r)).take Config.clearanceMax

/-- The scene table: the target in permille of a scene id for an axis of a role, or KEEP (`none`) (R14). -/
def sceneTarget (id : Nat) (r : Role) (k : Kind) : Option Nat :=
  match id, r, k with
  | 0, .m60, .slide | 0, .m40, .slide => some 500
  | 0, .m60, .back | 0, .m40, .back => some 250
  | 0, .m60, .tip | 0, .m40, .tip => some 0
  | 0, .rl, .back | 0, .rr, .back => some 250
  | 0, .rl, .stow | 0, .rr, .stow => some 0
  | 1, .m60, .slide => some 100
  | 1, .m60, .tip => some 1000
  | 2, .m40, .slide => some 100
  | 2, .m40, .tip => some 1000
  | 3, .rl, .back | 3, .rr, .back => some 1000
  | 3, .rl, .stow | 3, .rr, .stow => some 1000
  | 4, .m60, .back | 4, .m40, .back => some 1000
  | 4, .m60, .tip | 4, .m40, .tip => some 0
  | 5, .m60, .slide | 5, .m40, .slide => some 500
  | 5, .m60, .back | 5, .m40, .back => some 1000
  | 5, .m60, .tip | 5, .m40, .tip => some 0
  | 5, .rl, .back | 5, .rr, .back => some 1000
  | 5, .rl, .stow | 5, .rr, .stow => some 1000
  | _, _, _ => none

/-- The speed code of every scene table entry (R14), of a jog and of a yield (R9). -/
def sceneCode : Nat := 2
def jogCode : Nat := 2
def yieldCode : Nat := 1

/-- The one-touch table: scene id and scope mask of a role (R16). -/
def oneTouch : Role → Option (Nat × BitVec 6)
  | .fl | .fr => none
  | .m60 => some (1, 0b000100#6)
  | .m40 => some (2, 0b001000#6)
  | .rl => some (3, 0b010000#6)
  | .rr => some (3, 0b100000#6)

end Sys2Proof.Machine
end

