-- ==== Sys2Proof/Machine/Position.lean ====
section
/-! DEFINITION. Position arithmetic (chapter 2), on exact integers: `c` is a count, `S` a span, `x1..x2` a band. -/

namespace Sys2Proof.Machine

/-- The normalised position n of a count (R17). -/
def norm (c S : Int) : Int := floorDiv (c * 1000) S

/-- The static interval of a count (R17). -/
def staticInterval (c S : Int) : Interval := ⟨floorDiv (c * 1000) S, ceilDiv (c * 1000) S⟩

/-- The interval an axis without a permille position is tested with (R6, R17). -/
def wholeTravel : Interval := ⟨0, 1000⟩

/-- Whether an interval is inside a band: the two intersect (R10). -/
def Interval.meets (i : Interval) (b : Band) : Bool := decide ((b.x1 : Int) ≤ i.high ∧ i.low ≤ (b.x2 : Int))

/-- The reach bound b in counts (R18). -/
def reachBound (k : Kind) (st : AxisState) (lock : Bool) (vset : Int) : Int :=
  match st with
  | .driving =>
    let cap := ceilDiv (params k).vmax 25
    if lock then min (ceilDiv (vset * 9) 200) cap else cap
  | .braking => (params k).coast
  | .noAxis | .idle | .holding | .fault => 0

/-- The reach count c_r: b counts on in the drive direction, held to the envelope (R19). -/
def reachCount (env : Envelope) (dir : Dir) (c b : Int) : Int :=
  match env, dir with
  | .limits _ hi, .up => if b = 0 then c else min (c + b) hi
  | .limits lo _, .down => if b = 0 then c else max (c - b) lo
  | _, .up => c + b
  | _, .down => c - b

/-- The occupied interval of an axis with a permille position, from its count and reach count (R20). -/
def occupiedInterval (c cr S : Int) : Interval :=
  ⟨clampInt 0 1000 (floorDiv (min c cr * 1000) S), clampInt 0 1000 (ceilDiv (max c cr * 1000) S)⟩

/-- The sides by which an axis inside a band may leave it (R23). -/
inductive ExitSide where
  | neither | upward | downward
  deriving DecidableEq, Repr

/-- The side of exit, chosen from the band's edges and, for a band that touches neither end, by the nearer edge (R23). -/
def exitSide (b : Band) (n : Int) : ExitSide :=
  if b.x1 = 0 then (if b.x2 = 1000 then .neither else .upward)
  else if b.x2 = 1000 then .downward
  else if n - b.x1 ≤ b.x2 - n then .downward else .upward

/-- The last count whose static interval lies below a band (R22, R50). -/
def belowCut (b : Band) (S : Int) : Int := floorDiv (((b.x1 : Int) - 1) * S) 1000

/-- The first count whose static interval lies above a band (R22, R50). -/
def aboveCut (b : Band) (S : Int) : Int := ceilDiv (((b.x2 : Int) + 1) * S) 1000

/-- The base range of the envelope (R21). -/
def baseRange (k : Kind) (c S : Int) : Int × Int := (min c (params k).margin, max c (S - (params k).margin))

/-- The cut of one pair whose passage the axis does not hold (R22, R23). -/
def pairCut (c S : Int) (r : Int × Int) (b : Band) : Int × Int :=
  let i := staticInterval c S
  if i.high < b.x1 then (r.1, min r.2 (belowCut b S))
  else if i.low > b.x2 then (max r.1 (aboveCut b S), r.2)
  else
    match exitSide b (norm c S) with
    | .neither => (c, c)
    | .upward => (c, r.2)
    | .downward => (r.1, c)

/-- The seated clip (R24). -/
def seatedClip (k : Kind) (c S : Int) (r : Int × Int) : Int × Int :=
  if seatedKind k then (r.1, min r.2 (max c (floorDiv ((params k).seated * S) 1000))) else r

/-- The count range of an axis: the base, then the cut of each band it does not hold the passage of, then the seated clip
while the seated condition holds (R21 to R24). -/
def countRange (k : Kind) (c S : Int) (cuts : List Band) (seated : Bool) : Int × Int :=
  let r := cuts.foldl (pairCut c S) (baseRange k c S)
  if seated then seatedClip k c S r else r

/-- The coast allowance in force (R26). -/
def coastAllowance (k : Kind) (lock : Bool) : Int := if lock then (params k).coast else 2 * (params k).coast

/-- The stop point of a target in a count range (R26). -/
def stopPoint (dir : Dir) (t lo hi allowance : Int) : Int :=
  match dir with
  | .up => min t (hi - allowance)
  | .down => max t (lo + allowance)

/-- Whether a stop point lies beyond the count in a direction (R27). -/
def beyond (dir : Dir) (stop c : Int) : Bool :=
  match dir with
  | .up => decide (c < stop)
  | .down => decide (stop < c)

/-- The distance between two counts. -/
def dist (a b : Int) : Int := ((a - b).natAbs : Int)

/-- The speed setpoint of a run with a count target (R28): the lowest of cruise, creep + G·d and the previous setpoint +
creep, raised to creep, and held to twice creep while the supply is LOW. -/
def setpoint (k : Kind) (code : Nat) (d prev : Int) (low : Bool) : Int :=
  let p := params k
  let v := max p.creep (min (cruise k code) (min (p.creep + p.slope * d) (prev + p.creep)))
  if low then min v (2 * p.creep) else v

/-- The target of a yield from a band, or `none` where the band can be left by no side (R29). -/
def yieldTarget (k : Kind) (b : Band) (c S : Int) : Option Int :=
  match exitSide b (norm c S) with
  | .neither => none
  | .downward => some (min (floorDiv (((b.x1 : Int) - 20) * S) 1000) (belowCut b S - (params k).coast))
  | .upward => some (max (ceilDiv (((b.x2 : Int) + 20) * S) 1000) (aboveCut b S + (params k).coast))

/-- Whether a job from `c` to `t` crosses a band (R30): by the inequality, or because the axis is inside the band at the start (R57,
R128) or at the target (R31, R112). A count that straddles an edge of the band meets it, and can fail the inequality
(notes/assumptions/23.md). -/
def crosses (c t S : Int) (b : Band) : Bool :=
  decide (ceilDiv (min c t * 1000) S ≤ b.x2 ∧ (b.x1 : Int) ≤ floorDiv (max c t * 1000) S)
    || (staticInterval c S).meets b || (staticInterval t S).meets b

/-- The order of two bands in a direction of travel: by the near edge, equal edges by the lower pair number (R30). -/
def before (dir : Dir) (x y : Nat × Band) : Bool :=
  match dir with
  | .up => decide (x.2.x1 < y.2.x1 ∨ (x.2.x1 = y.2.x1 ∧ x.1 ≤ y.1))
  | .down => decide (y.2.x2 < x.2.x2 ∨ (x.2.x2 = y.2.x2 ∧ x.1 ≤ y.1))

/-- `x` put into an ordered list of bands. -/
def insertBand (dir : Dir) (x : Nat × Band) : List (Nat × Band) → List (Nat × Band)
  | [] => [x]
  | y :: ys => if before dir x y then x :: y :: ys else y :: insertBand dir x ys

/-- The bands a job crosses, in the order the axis meets them (R30). -/
def crossingOrder (dir : Dir) (c t S : Int) (bands : List (Nat × Band)) : List (Nat × Band) :=
  (bands.filter (fun x => crosses c t S x.2)).foldr (insertBand dir) []

/-- The near edge of a band, at which a failed claim stops a job (R50). -/
def nearEdge (dir : Dir) (b : Band) (S : Int) : Int :=
  match dir with
  | .up => belowCut b S
  | .down => aboveCut b S

/-- A target cut back to the near edge of a band (R50). -/
def cutTarget (dir : Dir) (t : Int) (b : Band) (S : Int) : Int :=
  match dir with
  | .up => min t (nearEdge .up b S)
  | .down => max t (nearEdge .down b S)

/-- Whether an interval has left a band on the far side in a direction of travel (R31). -/
def passedBand (dir : Dir) (i : Interval) (b : Band) : Bool :=
  match dir with
  | .up => decide ((b.x2 : Int) < i.low)
  | .down => decide (i.high < (b.x1 : Int))

/-- A scene target in counts (R32). -/
def sceneCount (k : Kind) (p : Nat) (S : Int) : Int :=
  clampInt (params k).margin (S - (params k).margin) (floorDiv (p * S) 1000)

/-- The target of a jog (R33). -/
def jogTarget (k : Kind) (dir : Dir) (c S : Int) : Int :=
  match dir with
  | .up => max c (S - (params k).margin)
  | .down => min c (params k).margin

/-- The limit of the job timer over a distance in counts (R34). -/
def jobLimit (k : Kind) (d : Int) : Int := 2000 + floorDiv (d * 1000) (params k).creep

/-- The measured speed from the pulses of four control intervals (R95). -/
def measuredSpeed (p : PulseHistory) : Int := 25 * ((p.p0 + p.p1 + p.p2 + p.p3 : Nat) : Int)

/-- The duty after a control interval (R97). -/
def nextDuty (k : Kind) (mode : LoopMode) (duty e : Int) : Int :=
  let gain : Int := match mode with | .seek => 2 | .track => 8
  clampInt 0 1000 (duty + truncDiv (e * 1000) (gain * (params k).vmax))

/-- The loop mode, LOCK and close-interval counter after the mode test of a control interval (R96). -/
def modeTest (mode : LoopMode) (lock : Bool) (close : Nat) (e vset : Int) : LoopMode × Bool × Nat :=
  match mode with
  | .seek =>
    if dist e 0 * 8 ≤ vset then
      (if close + 1 ≥ Config.closeToTrack then (.track, true, Config.closeToTrack) else (.seek, lock, close + 1))
    else (.seek, lock, 0)
  | .track => if vset < dist e 0 * 4 then (.seek, false, 0) else (.track, lock, close)

end Sys2Proof.Machine
end

