-- ==== Sys2Proof/Machine/Frames.lean ====
section
/-! DEFINITION. The frames of the seat bus (sections 9.1, 9.2 and 9.7): identifiers, the receive filter, the data bytes of
each kind, and what a received field outside its defined codes is taken as (R159). -/

namespace Sys2Proof.Machine

/-- The kind code of a frame: identifier = kind × 128 + sender × 16 (R146). -/
def Frame.kind (f : Frame) : Nat := f.ident.toNat / 128

/-- The sender code of a frame (R146). -/
def Frame.sender (f : Frame) : Nat := f.ident.toNat / 16 % 8

/-- Data byte `i`, as a number. -/
def Frame.byte (f : Frame) (i : Nat) : Nat := (f.data.getD i 0).toNat

/-- The identifier of a kind and a sender (R146). -/
def identOf (kind sender : Nat) : BitVec 11 := BitVec.ofNat 11 (kind * 128 + sender * 16)

/-- Kind codes (R146). -/
def kStop : Nat := 1
def kStake : Nat := 2
def kClaim : Nat := 3
def kCede : Nat := 4
def kDecline : Nat := 5
def kScene : Nat := 6
def kLearn : Nat := 7
def kVehicle : Nat := 8
def kStatus : Nat := 9
def kResult : Nat := 10

/-- The data length of a kind; `none` for a code that is no kind (R146, R148). -/
def lengthOfKind (k : Nat) : Option Nat :=
  if k = kStatus then some 24 else if kStop ≤ k ∧ k ≤ kResult then some 8 else none

/-- The filter: whether a frame another node completed enters the receive queue (R148). -/
def passesFilter (f : BusFrame) : Bool :=
  let g : Frame := ⟨f.ident, f.data⟩
  f.fdData11 && decide (g.sender ≠ 6) && decide (f.ident.toNat % 16 = 0) && lengthOfKind g.kind == some f.data.length

/-- A byte of a number. -/
def byteOf (n : Nat) : Byte := BitVec.ofNat 8 n

/-- Bit `k` of a number. -/
def bitOf (n k : Nat) : Bool := decide (n / 2 ^ k % 2 = 1)

/-- Codes of the standings (R159). -/
def standingCode : Standing → Nat
  | .scene => 0 | .jog => 1 | .yield => 2 | .service => 3

def standingOf : Nat → Option Standing
  | 0 => some .scene | 1 => some .jog | 2 => some .yield | 3 => some .service
  | _ => none

/-- Codes of the decline reasons (R159). -/
def reasonCode : Reason → Nat
  | .pinned => 0 | .occupied => 1 | .vehicle => 2 | .supply => 3 | .fault => 4 | .standing => 5 | .chain => 6

def reasonOf : Nat → Option Reason
  | 0 => some .pinned | 1 => some .occupied | 2 => some .vehicle | 3 => some .supply | 4 => some .fault
  | 5 => some .standing | 6 => some .chain
  | _ => none

/-- Speed class codes; 3 to 255 are the undefined class (R159). -/
def speedCode : SpeedClass → Nat
  | .still => 0 | .creep => 1 | .moving => 2

def speedOf : Nat → Option SpeedClass
  | 0 => some .still | 1 => some .creep | 2 => some .moving
  | _ => none

/-- Axis state codes; 6 and 7 are taken as FAULT (R159). -/
def axisCode : AxisState → Nat
  | .noAxis => 0 | .idle => 1 | .driving => 2 | .braking => 3 | .holding => 4 | .fault => 5

def axisOf : Nat → AxisState
  | 0 => .noAxis | 1 => .idle | 2 => .driving | 3 => .braking | 4 => .holding
  | _ => .fault

/-- Supply level codes; 3 is UNKNOWN (R159). -/
def levelCode : Level → Nat
  | .ok => 0 | .low => 1 | .critical => 2 | .unknown => 3

def levelOf : Nat → Level
  | 0 => .ok | 1 => .low | 2 => .critical
  | _ => .unknown

/-- Outcome codes of a RESULT (R159). -/
def outcomeCode : JobOutcome → Nat
  | .done => 0 | .blockedLimit => 1 | .declined _ => 2 | .wait => 3 | .peerLost => 4 | .unheard => 5 | .obstructed => 6
  | .timeout => 7 | .stop => 8 | .superseded => 9 | .user => 10 | .vehicle => 11 | .occupied => 12 | .supply => 13
  | .disabled => 14 | .fault => 15 | .conflict => 16 | .learnFail => 17 | .noJob => 18

/-- The decline-reason byte of a slot outcome: 255 where the slot is not DECLINED (R159). -/
def reasonByte : JobOutcome → Nat
  | .declined r => reasonCode r
  | _ => 255

/-- The record of one axis slot in a STATUS (R155). -/
structure SlotStatus where
  axis : AxisState
  lock : Bool
  referenced : Bool
  disabled : Bool
  dir : Dir
  interval : Interval
  deriving DecidableEq, Repr

/-- The content of a STATUS (R155, R159). `scene` is 15 for none. -/
structure StatusContent where
  seq : Nat
  mode : Mode
  occupied : Bool
  unheard : Bool
  conflict : Bool
  clash : Bool
  vehicleUnknown : Bool
  level : Level
  missSet : BitVec 6
  holdSet : BitVec 24
  scene : Nat
  slots : PerSlot SlotStatus
  deriving DecidableEq, Repr

/-- The content of a RESULT, as its codes (R132, R159). -/
structure ResultContent where
  id : Nat
  requester : Nat
  outcomes : PerSlot Nat
  reasons : PerSlot Nat
  deriving DecidableEq, Repr

/-- What a frame carries. A code outside its defined ones is `none` where R159 says the frame is then not applied or is of
an undefined class. -/
inductive Payload where
  | stop (scope : BitVec 6)
  | stake (pair : Nat)
  | claim (pair : Nat) (standing : Option Standing)
  | cede (pair : Nat)
  | decline (pair : Nat) (reason : Option Reason)
  | scene (id : Nat) (scope : BitVec 6)
  | learn (role slot : Nat)
  | vehicle (speed : Option SpeedClass) (park : Bool)
  | status (c : StatusContent)
  | result (c : ResultContent)
  | unknown
  deriving DecidableEq, Repr

/-- Whether an interval is one a slot record carries: 0 ≤ low ≤ high ≤ 1000 (R20, R159). -/
def Interval.wf (i : Interval) : Prop := 0 ≤ i.low ∧ i.low ≤ i.high ∧ i.high ≤ 1000

/-- The payloads that the layouts of R159 hold exactly: each field at a value its table defines. -/
def Payload.wf : Payload → Prop
  | .stop _ => True
  | .stake p | .cede p => p < 256
  | .claim p s => p < 256 ∧ s.isSome = true
  | .decline p r => p < 256 ∧ r.isSome = true
  | .scene id _ => id < 16
  | .learn role slot => role < 256 ∧ slot < 256
  | .vehicle s _ => s.isSome = true
  | .status c => c.seq < 16 ∧ c.scene < 16 ∧ c.slots.s0.interval.wf ∧ c.slots.s1.interval.wf ∧ c.slots.s2.interval.wf
  | .result c =>
    c.id < 256 ∧ c.requester < 256 ∧ c.outcomes.s0 < 256 ∧ c.outcomes.s1 < 256 ∧ c.outcomes.s2 < 256
      ∧ c.reasons.s0 < 256 ∧ c.reasons.s1 < 256 ∧ c.reasons.s2 < 256
  | .unknown => False

/-- The five bytes of a slot record (R159). -/
def slotBytes (r : SlotStatus) : List Byte :=
  let lo := r.interval.low.toNat
  let hi := r.interval.high.toNat
  [ byteOf (axisCode r.axis + 8 * r.lock.toNat + 16 * r.referenced.toNat + 32 * r.disabled.toNat
      + 64 * (decide (r.dir = .up)).toNat),
    byteOf (lo % 256), byteOf (lo / 256), byteOf (hi % 256), byteOf (hi / 256) ]

/-- The 24 bytes of a STATUS (R159). -/
def statusBytes (c : StatusContent) : List Byte :=
  let h := c.holdSet.toNat
  [ byteOf (c.seq + 16 * (decide (c.mode = .quiet)).toNat),
    byteOf (c.occupied.toNat + 2 * c.unheard.toNat + 4 * c.conflict.toNat + 8 * c.clash.toNat
      + 16 * c.vehicleUnknown.toNat + 32 * levelCode c.level),
    byteOf c.missSet.toNat, byteOf (h % 256), byteOf (h / 256 % 256), byteOf (h / 65536), byteOf c.scene, 0 ]
  ++ slotBytes c.slots.s0 ++ slotBytes c.slots.s1 ++ slotBytes c.slots.s2 ++ [0]

/-- Eight bytes, the last six spare. -/
def twoBytes (a b : Nat) : List Byte := [byteOf a, byteOf b, 0, 0, 0, 0, 0, 0]

/-- A frame of a sender with a payload, every spare bit and byte 0 (R146, R159). -/
def encode (sender : Nat) : Payload → Frame
  | .stop scope => ⟨identOf kStop sender, twoBytes scope.toNat 0⟩
  | .stake p => ⟨identOf kStake sender, twoBytes p 0⟩
  | .claim p s => ⟨identOf kClaim sender, twoBytes p (match s with | some x => standingCode x | none => 255)⟩
  | .cede p => ⟨identOf kCede sender, twoBytes p 0⟩
  | .decline p r => ⟨identOf kDecline sender, twoBytes p (match r with | some x => reasonCode x | none => 255)⟩
  | .scene id scope => ⟨identOf kScene sender, twoBytes id scope.toNat⟩
  | .learn role slot => ⟨identOf kLearn sender, twoBytes role slot⟩
  | .vehicle s park => ⟨identOf kVehicle sender, twoBytes (match s with | some x => speedCode x | none => 255) park.toNat⟩
  | .status c => ⟨identOf kStatus sender, statusBytes c⟩
  | .result c =>
    ⟨identOf kResult sender,
      [byteOf c.id, byteOf c.requester, byteOf c.outcomes.s0, byteOf c.outcomes.s1, byteOf c.outcomes.s2,
       byteOf c.reasons.s0, byteOf c.reasons.s1, byteOf c.reasons.s2]⟩
  | .unknown => ⟨identOf 0 sender, []⟩

/-- The interval of a slot record: a figure above 1000 is taken as 1000, and low above high as [0, 1000] (R159). -/
def intervalOf (lo hi : Nat) : Interval :=
  let l := min lo 1000
  let h := min hi 1000
  if h < l then wholeTravel else ⟨l, h⟩

/-- The slot record at an offset of a STATUS (R159). -/
def slotAt (f : Frame) (o : Nat) : SlotStatus :=
  let b := f.byte o
  { axis := axisOf (b % 8), lock := bitOf b 3, referenced := bitOf b 4, disabled := bitOf b 5,
    dir := if bitOf b 6 then .up else .down,
    interval := intervalOf (f.byte (o + 1) + 256 * f.byte (o + 2)) (f.byte (o + 3) + 256 * f.byte (o + 4)) }

/-- The content of a received STATUS (R159). -/
def statusAt (f : Frame) : StatusContent :=
  let b0 := f.byte 0
  let b1 := f.byte 1
  { seq := b0 % 16, mode := if bitOf b0 4 then .quiet else .active,
    occupied := bitOf b1 0, unheard := bitOf b1 1, conflict := bitOf b1 2, clash := bitOf b1 3,
    vehicleUnknown := bitOf b1 4, level := levelOf (b1 / 32 % 4), missSet := BitVec.ofNat 6 (f.byte 2),
    holdSet := BitVec.ofNat 24 (f.byte 3 + 256 * f.byte 4 + 65536 * f.byte 5), scene := f.byte 6 % 16,
    slots := ⟨slotAt f 8, slotAt f 13, slotAt f 18⟩ }

/-- What a received frame carries; spare bits and bytes are not read (R159). -/
def payload (f : Frame) : Payload :=
  let b0 := f.byte 0
  let b1 := f.byte 1
  if f.kind = kStop then .stop (BitVec.ofNat 6 b0)
  else if f.kind = kStake then .stake b0
  else if f.kind = kClaim then .claim b0 (standingOf b1)
  else if f.kind = kCede then .cede b0
  else if f.kind = kDecline then .decline b0 (reasonOf b1)
  else if f.kind = kScene then .scene (b0 % 16) (BitVec.ofNat 6 b1)
  else if f.kind = kLearn then .learn b0 b1
  else if f.kind = kVehicle then .vehicle (speedOf b0) (bitOf b1 0)
  else if f.kind = kStatus then .status (statusAt f)
  else if f.kind = kResult then
    .result { id := b0, requester := b1, outcomes := ⟨f.byte 2, f.byte 3, f.byte 4⟩,
              reasons := ⟨f.byte 5, f.byte 6, f.byte 7⟩ }
  else .unknown

/-- The pair a passage frame names, and `none` for another kind (section 3.2). -/
def passagePair (f : Frame) : Option Nat :=
  if f.kind = kStake ∨ f.kind = kClaim ∨ f.kind = kCede ∨ f.kind = kDecline then some (f.byte 0) else none

/-- Whether a scope mask names a role: bit r for role r (R159). -/
def inScope (scope : BitVec 6) (r : Role) : Bool := scope.getLsbD (roleCode r)

end Sys2Proof.Machine
end

