-- ==== Sys2Proof/Machine/Ops.lean ====
section
/-! DEFINITION. The named operations over the state: reading and writing one slot, one view, one peer record, one job, and
handing a frame to the transmit side (R38, R111, R152). -/

namespace Sys2Proof.Machine

/-! ### Slots -/

/-- The value of one slot. -/
def PerSlot.get {α : Type} (x : PerSlot α) : Slot → α
  | .s0 => x.s0 | .s1 => x.s1 | .s2 => x.s2

/-- `x` with one slot's value replaced. -/
def PerSlot.set {α : Type} (x : PerSlot α) (sl : Slot) (v : α) : PerSlot α :=
  match sl with
  | .s0 => { x with s0 := v }
  | .s1 => { x with s1 := v }
  | .s2 => { x with s2 := v }

/-- A value for each slot from a function of the slot. -/
def PerSlot.tabulate {α : Type} (f : Slot → α) : PerSlot α := ⟨f .s0, f .s1, f .s2⟩

/-- The kind of axis a slot holds, by the latched role; `none` in a slot in state NONE (R3). -/
def State.kindAt (s : State) (sl : Slot) : Option Kind :=
  match s.role with
  | none => none
  | some r => kindOf r sl

/-- The slots that hold an axis, in slot order. -/
def State.axisSlots (s : State) : List Slot := allSlots.filter (fun sl => (s.kindAt sl).isSome)

def State.drive (s : State) (sl : Slot) : Drive := s.adu.get sl
def State.setDrive (s : State) (sl : Slot) (d : Drive) : State := { s with adu := s.adu.set sl d }
def State.job (s : State) (sl : Slot) : Job := s.mvc.jobs.get sl
def State.setJob (s : State) (sl : Slot) (j : Job) : State := { s with mvc := { s.mvc with jobs := s.mvc.jobs.set sl j } }
def State.queuedAt (s : State) (sl : Slot) : Option QueuedStart := s.mvc.queued.get sl
def State.setQueued (s : State) (sl : Slot) (q : Option QueuedStart) : State :=
  { s with mvc := { s.mvc with queued := s.mvc.queued.set sl q } }
def State.setPin (s : State) (sl : Slot) (b : Bool) : State := { s with mvc := { s.mvc with pins := s.mvc.pins.set sl b } }
def State.setBus (s : State) (b : Bif) : State := { s with bus := b }
def State.setEnvelope (s : State) (sl : Slot) (e : Envelope) : State :=
  { s with clu := { s.clu with envelopes := s.clu.envelopes.set sl e } }

/-- The state with the level on VSENSE that the command in hand presents (R176). -/
def State.withSense (s : State) (v : Nat) : State := { s with vsense := v }

/-- The retained record of a slot written with the count and REFERENCED of its axis (R87, R88, R166). -/
def State.writeRetained (s : State) (sl : Slot) : State :=
  { s with rcs := { s.rcs with retained := s.rcs.retained.set sl ⟨(s.drive sl).count, (s.drive sl).referenced⟩ } }

/-- An activity event is reported to the AMON (R140), which takes events in START, SYNC and RUN (R139). -/
def State.noteActivity (s : State) : State :=
  if s.station = .start ∨ s.station = .sync ∨ s.station = .run then { s with amon := { s.amon with activityDue := true } }
  else s

/-! ### Views -/

/-- The view record of a pair, if the pair is on the clearance list. -/
def State.view? (s : State) (p : Nat) : Option View := s.clu.views.find? (fun v => v.pair == p)

/-- The view record of a pair changed. -/
def State.updView (s : State) (p : Nat) (f : View → View) : State :=
  { s with clu := { s.clu with views := s.clu.views.map (fun v => if v.pair = p then f v else v) } }

/-- The peer role of a view; `none` for a self pair (R35). -/
def View.peerRole (v : View) : Option Role :=
  match v.other with
  | .peer r _ _ => some r
  | .self _ _ => none

/-- The own slots of a view: one for a peer pair, both for a self pair (R35). -/
def View.ownSlots (v : View) : List Slot :=
  match v.other with
  | .peer _ _ _ => [v.slot]
  | .self sb _ => [v.slot, sb]

/-- The band of an own axis in a pair (R13). -/
def View.bandFor (v : View) (sl : Slot) : Option Band :=
  if v.slot = sl then some v.band
  else
    match v.other with
    | .peer _ _ _ => none
    | .self sb b => if sb = sl then some b else none

/-- Whether a view gives an own axis the passage (R22). -/
def View.gives (v : View) (sl : Slot) : Bool :=
  match v.other with
  | .peer _ _ _ => v.state == .own || v.state == .ownWait
  | .self sb _ => (v.state == .heldA && v.slot == sl) || (v.state == .heldB && sb == sl)

/-- The pairs an own axis sits in, in pair-number order (R13). -/
def State.pairsOf (s : State) (sl : Slot) : List View := s.clu.views.filter (fun v => (v.bandFor sl).isSome)

/-! ### Peer records -/

/-- The record of a peer role (R64). -/
def State.peer? (s : State) (r : Role) : Option PeerRec := s.pmon.peers.find? (fun p => p.role == r)

/-- The record of a peer role changed. -/
def State.updPeer (s : State) (r : Role) (f : PeerRec → PeerRec) : State :=
  { s with pmon := { s.pmon with peers := s.pmon.peers.map (fun p => if p.role = r then f p else p) } }

/-- Whether a peer's record is PRESENT. -/
def State.isPresent (s : State) (r : Role) : Bool :=
  match s.peer? r with
  | some p => p.state == .present
  | none => false

/-! ### What is due -/

/-- The passage frames that wait with the CLU for a free general slot, in the order in which they fell due (R152). -/
def Clu.waiting (c : Clu) : List Frame := c.due.filterMap (·.frame)

/-- The state with another list of what is due and in no slot. -/
def State.setDue (s : State) (ds : List Due) : State := { s with clu := { s.clu with due := ds } }

/-- A frame of a pair recorded as due, behind all that fell due before it; one that is recorded already keeps its place
(R38, R152). -/
def State.recordDue (s : State) (p : Nat) (k : PassageKind) : State :=
  s.setDue (if s.clu.due.contains ⟨p, k, none⟩ then s.clu.due else s.clu.due ++ [⟨p, k, none⟩])

/-- A frame of a pair no longer recorded as due: it is placed in a slot, withdrawn, or called for no more (R38). -/
def State.dropDue (s : State) (p : Nat) (k : PassageKind) : State :=
  s.setDue (s.clu.due.filter (fun x => x ≠ ⟨p, k, none⟩))

/-- A frame of a pair that has been handed over and waits for a slot: in the place of its record where it was recorded as due, since it
fell due then, and behind all that fell due before it otherwise (R38, R152). -/
def State.awaitSlot (s : State) (p : Nat) (k : PassageKind) (f : Frame) : State :=
  s.setDue
    (if s.clu.due.contains ⟨p, k, none⟩ then s.clu.due.map (fun x => if x = ⟨p, k, none⟩ then ⟨p, k, some f⟩ else x)
     else s.clu.due ++ [⟨p, k, some f⟩])

/-- A frame that waits for a slot no longer: it takes one (R152). -/
def State.leaveWaiting (s : State) (f : Frame) : State := s.setDue (s.clu.due.eraseP (fun x => x.frame == some f))

/-- The pairs for which a frame of a kind is recorded as due, in the order in which they fell due (R152). -/
def State.pairsDue (s : State) (k : PassageKind) : List Nat :=
  (s.clu.due.filter (fun x => x.kind == k && x.frame.isNone)).map (·.pair)

/-- A withdrawal CEDE falls due for a pair (R38, R51). -/
def State.oweCede (s : State) (p : Nat) : State := (s.updView p (fun w => { w with cedeDue := true })).recordDue p .cede

/-- A STAKE falls due for a pair (R38, R60). -/
def State.oweStake (s : State) (p : Nat) : State := (s.updView p (fun w => { w with stakeDue := true })).recordDue p .stake

/-- A pair's stake due cleared (R38, R76). -/
def State.clearStake (s : State) (p : Nat) : State := (s.updView p (fun w => { w with stakeDue := false })).dropDue p .stake

/-! ### Frames -/

/-- The sender code of the station's frames (R2). -/
def State.sender (s : State) : Nat :=
  match s.role with
  | some r => roleCode r
  | none => 6

/-- Whether the interface takes frames from the blocks: in SYNC and RUN, and not in bus-off (R38, R152, R158). -/
def State.busOpen (s : State) : Bool := (s.station == .sync || s.station == .run) && s.bus.busOff.isNone

/-- Whether a general slot is free (R151). -/
def Bif.hasRoom (b : Bif) : Bool := decide (b.general.length < Config.generalCapacity)

/-- The claims recorded as due for a slot's job are due no longer: the job has ended (R38, R113). -/
def State.dropClaims (s : State) (sl : Slot) : State :=
  s.setDue
    (s.clu.due.filter (fun x => !(x.kind == .claim && x.frame.isNone && (s.pairsOf sl).any (fun v => v.pair == x.pair))))

/-- A passage frame of a pair handed to the BIF: it takes a free general slot if no passage frame waits for one, and otherwise waits
with the CLU, ranked by when it fell due (R152). -/
def State.placePassage (s : State) (p : Nat) (k : PassageKind) (f : Frame) : State :=
  if s.clu.waiting.isEmpty && s.bus.hasRoom then (s.dropDue p k).setBus { s.bus with general := s.bus.general ++ [f] }
  else s.awaitSlot p k f

/-- Whether the CLU may hand a frame of this pair to the BIF now: none in flight, in RUN, not in bus-off (R38). -/
def State.mayHand (s : State) (v : View) : Bool := v.inFlight.isNone && s.station == .run && s.bus.busOff.isNone

/-- A passage frame of a pair handed over: it becomes the pair's frame in flight (R38). -/
def State.handPassage (s : State) (p : Nat) (k : PassageKind) (pl : Payload) : State :=
  (s.updView p (fun v => { v with inFlight := some k })).placePassage p k (encode s.sender pl)

def State.handClaim (s : State) (p : Nat) (st : Standing) : State := s.handPassage p .claim (.claim p (some st))
def State.handCede (s : State) (p : Nat) : State := s.handPassage p .cede (.cede p)
def State.handStake (s : State) (p : Nat) : State := s.handPassage p .stake (.stake p)
def State.handDecline (s : State) (p : Nat) (r : Reason) : State := s.handPassage p .decline (.decline p (some r))

/-- A stake due handed over (R38, R76): the record has it no longer, and its frame keeps the place in which it fell due (R152). -/
def State.serveDueStake (s : State) (p : Nat) : State := (s.updView p (fun w => { w with stakeDue := false })).handStake p

/-- Frames of the MVC's outgoing list handed to the BIF, oldest first, while general slots are free and no passage frame
waits for one; `n` bounds the frames handed (R111, R152). -/
def State.drainOutgoing : Nat → State → State
  | 0, s => s
  | n + 1, s =>
    match s.mvc.outgoing with
    | [] => s
    | f :: fs =>
      if s.busOpen && s.clu.waiting.isEmpty && s.bus.hasRoom then
        drainOutgoing n
          { s with mvc := { s.mvc with outgoing := fs }, bus := { s.bus with general := s.bus.general ++ [f] } }
      else s

/-- A frame placed at the end of the MVC's outgoing list; the oldest waiting frame is dropped where the list would hold 5 (R111). -/
def Mvc.append (m : Mvc) (f : Frame) : Mvc :=
  let fs := m.outgoing ++ [f]
  { m with outgoing := if fs.length > Config.outgoingCapacity then fs.drop 1 else fs }

/-- A frame the MVC has built: the frames of its list go to the general slots that stand free for them first, so that none is dropped
that a slot can take, then the new one is placed at the end (R111). While a passage frame waits for a free slot the MVC hands none, and
its list can drop one all the same (notes/assumptions/14.md). -/
def State.placeOutgoing (s : State) (f : Frame) : State :=
  let t := State.drainOutgoing Config.outgoingCapacity s
  State.drainOutgoing Config.outgoingCapacity { t with mvc := t.mvc.append f }

/-- The first of the frames of lowest identifier in a list (R151, R152). -/
def lowestFrame : List Frame → Option Frame
  | [] => none
  | f :: fs =>
    match lowestFrame fs with
    | none => some f
    | some g => if g.ident.toNat < f.ident.toNat then some g else some f

/-- One free general slot given to the waiting frame of lowest identifier among the CLU's waiting frames and the oldest
frame of the MVC's outgoing list, among equals to the one that fell due first (R152). -/
def State.assignSlot (s : State) : State :=
  if s.busOpen && s.bus.hasRoom then
    match lowestFrame (s.clu.waiting ++ s.mvc.outgoing.take 1) with
    | none => s
    | some f =>
      let s1 := s.setBus { s.bus with general := s.bus.general ++ [f] }
      if s.clu.waiting.contains f then s1.leaveWaiting f
      else { s1 with mvc := { s.mvc with outgoing := s.mvc.outgoing.drop 1 } }
  else s

/-- As many free general slots assigned as frames wait and slots are free, at most `n` (R152, R157). -/
def State.assignSlots : Nat → State → State
  | 0, s => s
  | n + 1, s => assignSlots n s.assignSlot

end Sys2Proof.Machine
end

