-- ==== Sys2Proof/Machine/Flags.lean ====
section
/-! DEFINITION. The conditions and flags the blocks derive from the state: the vehicle at rest in park (R84), the seated
condition (R8), UNHEARD (R75), the conflict flag (R58), the supply bar on driving (R98), and the intervals and envelopes of
the axes (R20 to R25). -/

namespace Sys2Proof.Machine

/-- At rest in park: speed class STILL, park yes, known true (R84). -/
def Gateway.stillPark (g : Gateway) : Bool := g.speed == .still && g.park && g.known

def State.stillPark (s : State) : Bool := s.pmon.gateway.stillPark

/-- The debounced occupancy (R144). -/
def State.isOccupied (s : State) : Bool := s.liu.occupancy.stable

/-- The seated condition: occupied, or not STILL with park (R8). -/
def State.seated (s : State) : Bool := s.isOccupied || !s.stillPark

/-- UNHEARD: a PRESENT record has its misses-me flag set (R75). -/
def State.unheard (s : State) : Bool := s.pmon.peers.any (fun p => p.state == .present && p.missesMe)

/-- The conflict flag: a view on the clearance list, peer or self, is CONFLICT (R58). -/
def State.conflictFlag (s : State) : Bool := s.clu.views.any (fun v => v.state == .conflict)

/-- Entry into DRIVING is withheld while the level is CRITICAL or UNKNOWN (R98). -/
def State.supplyBars (s : State) : Bool := s.smon.level == .critical || s.smon.level == .unknown

/-- The hold set: the peer pairs whose view is OWN or OWN+WAIT (R155). -/
def State.holdSet (s : State) : BitVec 24 :=
  s.clu.views.foldl
    (fun h v => if v.peerRole.isSome && (v.state == .own || v.state == .ownWait) then h ||| BitVec.ofNat 24 (2 ^ v.pair) else h) 0

/-- The miss set: the roles whose record is LOST, and in RUN those whose record is ABSENT (R73). -/
def State.missSet (s : State) : BitVec 6 :=
  s.pmon.peers.foldl
    (fun m p => if p.state == .lost || (s.station == .run && p.state == .absent) then m ||| BitVec.ofNat 6 (2 ^ roleCode p.role)
      else m) 0

/-- Whether an axis has a count envelope and a permille position: REFERENCED, not DISABLED, span not 0 (R6, R21, R87). -/
def Drive.hasRange (d : Drive) : Bool := d.referenced && !d.disabled && d.span != 0

/-- The occupied interval of a slot (R20), [0, 1000] for an UNREFERENCED or DISABLED axis, 0..0 for a slot in NONE. -/
def State.occupiedAt (s : State) (sl : Slot) : Interval :=
  match s.kindAt sl with
  | none => ⟨0, 0⟩
  | some k =>
    let d := s.drive sl
    if d.hasRange then
      occupiedInterval d.count
        (reachCount (s.clu.envelopes.get sl) d.dir d.count (reachBound k d.axis d.lock d.vset)) d.span
    else wholeTravel

/-- The condition of an axis without a count envelope: open while every pair of its set gives it the passage, frozen while any
does not (R25). -/
def State.conditionFor (s : State) (sl : Slot) : Envelope :=
  if (s.pairsOf sl).all (fun v => v.gives sl) then .opened else .frozen

/-- The bands of an axis whose passage it does not hold, in pair-number order: those that cut its envelope (R22). -/
def State.unheldBands (s : State) (sl : Slot) : List Band :=
  ((s.pairsOf sl).filter (fun v => !v.gives sl)).filterMap (fun v => v.bandFor sl)

/-- The envelope of a slot's axis: a count range for an axis that has one (R21 to R24), and otherwise its condition (R25). -/
def State.envelopeFor (s : State) (sl : Slot) : Envelope :=
  match s.kindAt sl with
  | none => .frozen
  | some k =>
    let d := s.drive sl
    if d.hasRange then
      let r := countRange k d.count d.span (s.unheldBands sl) s.seated
      .limits r.1 r.2
    else s.conditionFor sl

/-- The envelope as recomputed at a cause other than a control interval (R21, R25). The count range of an axis that has just come
to be REFERENCED is first built at a control interval, and until then its condition stands (R87). -/
def State.nextEnvelope (s : State) (sl : Slot) : Envelope :=
  match s.clu.envelopes.get sl, s.kindAt sl with
  | .limits _ _, _ | _, none => s.envelopeFor sl
  | .opened, some _ | .frozen, some _ => s.conditionFor sl

/-- The envelope of an axis recomputed (R21). -/
def State.buildEnvelope (s : State) (sl : Slot) : State := s.setEnvelope sl (s.nextEnvelope sl)

/-- Whether an own axis's occupied interval meets its band of a pair. -/
def State.inside (s : State) (v : View) (sl : Slot) : Bool :=
  match v.bandFor sl with
  | some b => (s.occupiedAt sl).meets b
  | none => false

/-- Whether the own axis of a peer pair is inside its band. -/
def State.ownInside (s : State) (v : View) : Bool := s.inside v v.slot

/-- Whether a PRESENT peer's advertised interval for its axis meets the peer's band (R45, R58). What a peer that is not PRESENT last
advertised is not consulted (R69, R71), at the echo of a STAKE neither (notes/assumptions/44.md). -/
def State.peerInside (s : State) (v : View) : Bool :=
  match v.other with
  | .self _ _ => false
  | .peer r k b =>
    match s.peer? r, slotOfKind r k with
    | some p, some sl => p.state == .present && (p.intervals.get sl).meets b
    | _, _ => false

/-- Whether the peer of a view advertises the pair in its hold set (R60, R78). -/
def State.peerHolds (s : State) (v : View) : Bool :=
  match v.peerRole with
  | none => false
  | some r =>
    match s.peer? r with
    | some p => p.holdSet.getLsbD v.pair
    | none => false

/-- Whether a status is a failure. -/
def EntryStatus.isFailed : EntryStatus → Bool
  | .failed _ => true
  | _ => false

/-- Whether a claim of the job is pending or queued: an entry is NEEDED or CLAIMED (R27, R48). -/
def Job.claimPending (j : Job) : Bool :=
  j.active && j.entries.any (fun e => e.status == .needed || e.status == .claimed)

/-- The entries of a crossing list that call for their pairs (R31): those that are not passed, a FAILED one among them, but for a HELD
one behind a FAILED one, which the cut job needs no longer (R50; how the two rules meet is said in notes/assumptions/41.md). -/
def neededEntries (es : List Entry) : List Entry :=
  (es.takeWhile (fun e => !e.status.isFailed)).filter (fun e => e.status != .passed) ++
    (es.dropWhile (fun e => !e.status.isFailed)).filter (fun e => e.status != .passed && e.status != .held)

/-- Whether a job needs a pair (R31; R130 for a learn): the pair is on its list and not passed, nor HELD beyond a failed entry (R50),
or its target lies inside the band. A SCENE job in its REFERENCE run needs the pairs that its target lies in
(notes/assumptions/45.md). -/
def Job.needs (j : Job) (d : Drive) (p : Nat) (b : Band) : Bool :=
  j.active &&
    (if j.origin = .learn then j.entries.any (fun e => e.pair == p)
     else
      (neededEntries j.entries).any (fun e => e.pair == p)
      || (match j.target with
          | some t => d.span != 0 && (staticInterval t d.span).meets b
          | none => false))

/-- Whether the active job of an own axis needs a pair. -/
def State.needed (s : State) (v : View) (sl : Slot) : Bool :=
  match v.bandFor sl with
  | some b => (s.job sl).needs (s.drive sl) v.pair b
  | none => false

/-- Whether the axis of a slot has an active job, or one about to start when the old one has ended (R55, R116). -/
def State.busy (s : State) (sl : Slot) : Bool := (s.job sl).active || (s.queuedAt sl).isSome

/-- Whether a LEARN's calibration write is in progress on a slot (R107). -/
def State.writingAt (s : State) (sl : Slot) : Bool := (s.rcs.writing.get sl).isSome

/-! ### What the bus and the pins show -/

/-- The duty on PWMn, in thousandths (R174). -/
def State.pwm (s : State) (sl : Slot) : Int := (s.drive sl).duty
/-- The level on DIRn: high is up (R174). -/
def State.dirPin (s : State) (sl : Slot) : Bool := (s.drive sl).dir == .up
/-- The level on BRKn: high is brake on (R174). -/
def State.brakePin (s : State) (sl : Slot) : Bool := (s.drive sl).brake
/-- Whether CANTX is held recessive: while reset is held, in START, in bus-off and in STANDSTILL (R177). -/
def State.canTxRecessive (s : State) : Bool :=
  s.station == .held || s.station == .start || s.station == .standstill || s.bus.busOff.isSome

end Sys2Proof.Machine
end

