-- ==== Sys2Proof/Machine/Reports.lean ====
section
/-! DEFINITION. The reports the blocks pass one another inside one step. A block that has done its own part of a step
answers the new state and the reports it makes; Machine/Cascade.lean takes them in order, each report's own reports before
the rest, until none is left (notes/assumptions/5.md). -/

namespace Sys2Proof.Machine

/-- How a run ended, as the ADU reports it (R90, R108): with an outcome, with a reference leg complete, with a raw count, or
replaced while it waited for the brake period to end, so that it never started. -/
inductive RunEnd where
  | outcome (o : JobOutcome)
  | refComplete
  | rawCount (n : Nat)
  | neverStarted
  deriving DecidableEq, Repr

/-- A report from one block to another. -/
inductive Report where
  /-- A recomputation cause of the envelope of an axis: the CLU builds it and hands it to the ADU (R21, R91, R93). -/
  | envelope (sl : Slot)
  /-- The test of release on exit of a pair (R53, R63). -/
  | release (p : Nat)
  /-- A yield evaluation of a pair (R55). -/
  | evalYield (p : Nat)
  /-- What waited behind a pair's frame in flight is served (R38). -/
  | serve (p : Nat)
  /-- A pair's stake due is served or cleared, unless the station is UNHEARD (R38, R75). -/
  | serveStake (p : Nat)
  /-- The test of a view in CONFLICT (R59, R63). -/
  | retest (p : Nat)
  /-- The local arbiter decides a self pair (R62). -/
  | arbitrate (p : Nat)
  /-- A claim entry of the job on a slot is decided (R48). -/
  | decide (sl : Slot) (p : Nat)
  /-- A claim is withdrawn: the entry's status and the view as they stood (R51). -/
  | withdraw (sl : Slot) (p : Nat) (st : EntryStatus) (v0 : ViewState)
  /-- A claim entry fails (R50). -/
  | failEntry (sl : Slot) (p : Nat) (f : Failure)
  /-- The MVC hands the job's run to the ADU (R112). -/
  | handRun (sl : Slot)
  /-- A learn whose entries are all HELD hands its run (R130, R131). -/
  | learnCheck (sl : Slot)
  /-- The ADU's own steps of a control interval (R89, R93, R94). -/
  | aduControl (sl : Slot)
  /-- The waiting run is taken at the end of the brake period (R90). -/
  | beginWaiting (sl : Slot)
  /-- The drive set has gone from empty to not empty (R134). -/
  | driveEntered
  /-- The supply level has become CRITICAL (R98, R127). -/
  | supplyCritical
  /-- The MVC ends the job on a slot for a cause of its own (R113). -/
  | endRequest (sl : Slot) (o : JobOutcome)
  /-- The MVC ends the jobs on several slots for one cause, every request taken before the end of any of them has an effect
  (R113, R137; notes/assumptions/29.md). -/
  | endRequests (sls : List Slot) (o : JobOutcome)
  /-- The ADU reports the end of a run (R108). -/
  | runEnded (sl : Slot) (e : RunEnd)
  /-- The job on a slot ends with its final outcome (R113). -/
  | finishJob (sl : Slot) (o : JobOutcome)
  /-- A job is to take the place of whatever is on its axis, which ends with the outcome given (R109, R116, R122, R129). -/
  | replaceJob (sl : Slot) (q : QueuedOrigin) (o : JobOutcome)
  /-- A job that waited for the old job on its axis starts (R116). -/
  | startQueued (sl : Slot)
  /-- A slot outcome is entered in the scene record (R113, R120). -/
  | sceneOutcome (sl : Slot) (m : Member) (o : JobOutcome)
  /-- The gates of a taken scene (R117). -/
  | sceneGates (id : Nat)
  /-- One slot of a scene is loaded (R118). -/
  | loadSlot (sl : Slot) (id : Nat)
  /-- The CLU asks for a YIELD job on the holding axis (R57, R128). -/
  | startYield (p : Nat) (sl : Slot)
  /-- A jog is requested (R122). -/
  | jogRequest (sl : Slot) (dir : Dir)
  /-- A record has entered LOST in RUN (R71). -/
  | peerLost (r : Role)
  /-- A record has entered PRESENT in RUN (R61). -/
  | peerReturned (r : Role)
  /-- The tests of step 4 on a STATUS taken (R65). -/
  | peerTests (r : Role)
  /-- The forced-reconciliation flag is cleared, at the end of step 4 (R65, R79). -/
  | clearForced (r : Role)
  /-- The tests of one shared pair in step 4 (R59, R58, R78). -/
  | pairTests (p : Nat)
  /-- The station has become UNHEARD (R75), or has stopped being so (R76). -/
  | unheardEntered
  | unheardCleared
  /-- SYNC exit (R171). -/
  | syncExit
  deriving DecidableEq, Repr

/-- What a block answers: the new state and its reports, in order. -/
abbrev Effect := State × List Report

/-- The effect of one part of a step followed by that of another. -/
def Effect.andThen (e : Effect) (f : State → Effect) : Effect :=
  let g := f e.1
  (g.1, e.2 ++ g.2)

/-- Effects over a list, in order: each one's state is that of the next, and their reports stand behind one another. -/
def overAll {α : Type} (f : State → α → Effect) : List α → State → Effect
  | [], s => (s, [])
  | x :: xs, s => (f s x).andThen (overAll f xs)

end Sys2Proof.Machine
end

