-- ==== Sys2Proof/Machine/Clu.lean ====
section
/-! DEFINITION. The clearance unit (chapter 3): changes of a view and what follows from them, claims and withdrawals, release
on exit, yield evaluation, CONFLICT, the derivation of views, and the self-pair arbiter. The effect of each passage frame
stands in Machine/Passage.lean. -/

namespace Sys2Proof.Machine

/-! ### Changing a view -/

/-- A view record in a new state. The wait timer starts on entry into QUEUED and stops on exit; the waiter standing is
cleared on every exit from OWN+WAIT (R36). A self pair that changes hands has no waiter left (R63). -/
def View.goTo (v : View) (st : ViewState) : View :=
  match v.other with
  | .peer _ _ _ =>
    { v with
      state := st
      waitTimer := if st = .queued then (if v.state = .queued then v.waitTimer else some Config.waitTime) else none
      waiter := if st = .ownWait then v.waiter else none
      yieldAsked := if st = .ownWait ∧ v.state = .ownWait then v.yieldAsked else false }
  | .self _ _ => { v with state := st, waitTimer := none, waiter := none, waiting := none, yieldAsked := false }

/-- A job with the status of its entry of a pair changed. -/
def Job.mark (j : Job) (p : Nat) (f : EntryStatus → EntryStatus) : Job :=
  { j with entries := j.entries.map (fun e => if e.pair = p then { e with status := f e.status } else e) }

/-- The status of a job's entry of a pair, if it has one. -/
def Job.entryOf (j : Job) (p : Nat) : Option EntryStatus := (j.entries.find? (fun e => e.pair == p)).map (·.status)

/-- NEEDED and CLAIMED become HELD; a PASSED or FAILED entry stays (R49). -/
def grantStatus : EntryStatus → EntryStatus
  | .needed | .claimed | .held => .held
  | .passed => .passed
  | .failed f => .failed f

/-- Whether a job's claim of a pair waits to be decided at an echo: a frame of the pair is in flight, or a withdrawal CEDE is
due (R38). -/
def View.claimWaits (v : View) : Bool := v.inFlight.isSome || v.cedeDue

/-- The status of an entry once the view of its pair gives the axis the passage (R49). A NEEDED entry whose claim waits behind a
frame in flight is not recorded with the CLU: it stays NEEDED, and is decided afresh at the echo (R38). -/
def View.grant (v : View) (st : EntryStatus) : EntryStatus :=
  if st = .needed ∧ v.claimWaits = true then .needed else grantStatus st

/-- The entries of active jobs for a pair whose view now gives their axis the passage become HELD (R49). -/
def State.grantEntries (s : State) (v : View) : State :=
  v.ownSlots.foldl
    (fun t sl => if v.gives sl && (t.job sl).active then t.setJob sl ((t.job sl).mark v.pair v.grant) else t) s

/-- The record of a view in a new state, with the envelope of each own axis in the pair rebuilt from it (R21, R35). -/
def State.moveView (s : State) (v : View) (st : ViewState) : State :=
  v.ownSlots.foldl State.buildEnvelope (s.updView v.pair (fun w => w.goTo st))

/-- A view in a new state. Every change is a recomputation cause of the envelope of each own axis in the pair, which is handed to
the axis's ADU (R21, R35). -/
def State.viewTo (s : State) (p : Nat) (st : ViewState) : Effect :=
  match s.view? p with
  | none => (s, [])
  | some v =>
    if v.state = st then (s, [])
    else
      ((s.moveView v st).grantEntries (v.goTo st),
        v.ownSlots.map Report.envelope ++ v.ownSlots.map Report.learnCheck)

/-- What the entry into CONFLICT of a pair does to the job on an own axis in it (R49, R58): its claim of the pair is withdrawn,
its entry fails with CONFLICT, and the job ends CONFLICT, a learn by the failure itself (R130). The withdrawal is made by the
case of R51 that the view in CONFLICT leaves: a CLAIM in flight alone has one. -/
def State.conflictReports (s : State) (p : Nat) (sl : Slot) : List Report :=
  if (s.job sl).active then
    ((s.job sl).entryOf p).toList.flatMap (fun st => [.withdraw sl p st .conflict, .failEntry sl p .conflict])
      ++ (if (s.job sl).origin = .learn then [] else [.endRequest sl .conflict])
  else []

/-- A view enters CONFLICT: the active job of each own axis in the pair ends CONFLICT (R58, R63), and then the envelopes, by then
exit-only or frozen in the pair, are handed to the ADUs (R23, R25). -/
def State.enterConflict (s : State) (p : Nat) : Effect :=
  match s.view? p with
  | none => (s, [])
  | some v =>
    let e := s.viewTo p .conflict
    (e.1, v.ownSlots.flatMap (fun sl => e.1.conflictReports p sl) ++ e.2)

/-! ### Progress and release -/

/-- The entries of a slot's job whose bands its interval has left on the far side become PASSED (R31, R49, R112), those still
waiting for their claims among them: an exit-only axis leaves a band without holding it (notes/assumptions/24.md). A learn has
no PASSED entry (R130). -/
def State.markPassed (s : State) (sl : Slot) : State :=
  let j := s.job sl
  if j.active && j.origin != .learn then
    s.setJob sl
      { j with
        entries := j.entries.map (fun e =>
          if e.status = .held ∨ e.status = .needed ∨ e.status = .claimed then
            match (s.view? e.pair).bind (fun v => v.bandFor sl) with
            | some b => if passedBand j.dir (s.occupiedAt sl) b then { e with status := .passed } else e
            | none => e
          else e) }
  else s

/-- The slot that holds a self pair, and the slot that waits for it, by the view state (R62). -/
def View.selfHolder (v : View) : Option Slot :=
  match v.other, v.state with
  | .self _ _, .heldA => some v.slot
  | .self sb _, .heldB => some sb
  | _, _ => none

/-- The slot of axis A or B of a self pair. -/
def View.selfSlot (v : View) (x : SelfAxis) : Slot :=
  match v.other, x with
  | .self sb _, .b => sb
  | _, _ => v.slot

/-- Which axis of a self pair a slot is. -/
def View.selfAxis (v : View) (sl : Slot) : SelfAxis := if v.slot = sl then .a else .b

/-- The view state in which an axis holds a self pair. -/
def heldBy : SelfAxis → ViewState
  | .a => .heldA
  | .b => .heldB

/-- The test of release on exit (R53, R63): the holding axis's interval lies wholly outside its band, no active job of the
axis needs the pair, and, for a peer pair, no frame is in flight. -/
def State.release (s0 : State) (p : Nat) : Effect :=
  match s0.view? p with
  | none => (s0, [])
  | some v =>
    let s := v.ownSlots.foldl State.markPassed s0
    match v.other with
    | .peer _ _ _ =>
      if (v.state = .own ∨ v.state = .ownWait) ∧ s.inside v v.slot = false ∧ s.needed v v.slot = false
          ∧ s.mayHand v = true then
        (s.handCede p, [])
      else (s, [])
    | .self _ _ =>
      match v.selfHolder with
      | none => (s, [])
      | some h =>
        if s.station = .run ∧ s.inside v h = false ∧ s.needed v h = false then
          match v.waiting.filter (fun x => heldBy x != v.state) with
          | some x => (s.viewTo p (heldBy x)).andThen (fun t => (t, [.release p]))
          | none => s.viewTo p .opened
        else (s, [])

/-! ### Yield evaluation -/

/-- A self pair's record with no axis waiting (R62, R63). -/
def View.noWaiter (v : View) : View := { v with waiting := none, waitTimer := none, waiter := none, yieldAsked := false }

/-- The first reason for which a holder inside its band with no job declines a waiting claim (R56). -/
def State.declineReason (s : State) (v : View) (sl : Slot) : Option Reason :=
  if v.waiter = some .jog ∨ v.waiter = some .yield then some .standing
  else if s.mvc.pins.get sl then some .pinned
  else if s.isOccupied then some .occupied
  else if !s.stillPark then some .vehicle
  else if s.supplyBars then some .supply
  else if (s.drive sl).axis = .fault ∨ (s.drive sl).hasRange = false then some .fault
  else none

/-- A waiting claim declined: a DECLINE for a peer pair, where a frame may be handed (R56, R57; otherwise it is decided again
at the echo, R38); for a self pair the waiting claim fails at once (R63), and an axis that holds for nothing else ends its job with it
(R123; notes/assumptions/47.md). -/
def State.decline (s : State) (v : View) (r : Reason) : Effect :=
  match v.other with
  | .peer _ _ _ => if s.mayHand v then (s.handDecline v.pair r, []) else (s, [])
  | .self _ _ =>
    match v.waiting with
    | none => (s, [])
    | some x =>
      (s.updView v.pair View.noWaiter,
        [.failEntry (v.selfSlot x) v.pair (.declined r), .envelope (v.selfSlot x)])

/-- The axis that holds a pair some claim waits for (R55): the own axis of a peer pair in OWN+WAIT, or the holder of a self
pair with its waiting flag set. -/
def View.waitedHolder (v : View) : Option Slot :=
  match v.other with
  | .peer _ _ _ => if v.state = .ownWait then some v.slot else none
  | .self _ _ => if v.waiting.isSome then v.selfHolder else none

/-- A yield evaluation (R55): deferred while the own axis has a job, release on exit where it is outside its band, and
otherwise a decline or a yield (R56, R57). Once a YIELD job has been asked for on behalf of the present waiter, or has ended while it
waited, there is no other evaluation for it: where that job is over and the axis is still inside, the reason is CHAIN (R57). -/
def State.evalYield (s0 : State) (p : Nat) : Effect :=
  match s0.view? p with
  | none => (s0, [])
  | some v =>
    match v.waitedHolder with
    | none => (s0, [])
    | some h =>
      let s := s0.markPassed h
      let j := s.job h
      if s.station ≠ .run then (s, [])
      else if v.yieldAsked then
        if j.active = true ∧ j.origin = .yield p then (s, [])
        else if s.inside v h then s.decline v .chain
        else (s, [.release p])
      else if s.busy h then (s, [])
      else if s.inside v h = false then (s, [.release p])
      else
        match s.declineReason v h with
        | some r => s.decline v r
        | none => (s.updView p (fun w => { w with yieldAsked := true }), [.startYield p h])

/-! ### Claims -/

/-- Whether a job may start while a pair on its list is in CONFLICT: it moves in the exit direction and its target lies
outside the band (R59). -/
def State.leavesConflict (s : State) (sl : Slot) (b : Band) : Bool :=
  let j := s.job sl
  let d := s.drive sl
  let side := exitSide b (norm d.count d.span)
  ((side == .upward && j.dir == .up) || (side == .downward && j.dir == .down)) &&
    (match j.target with
     | some t => !(staticInterval t d.span).meets b
     | none => false)

/-- A claim decided on a pair in CONFLICT (R59, R130): a job that leaves the band runs with its entry NEEDED, any other ends
CONFLICT, and a learn's entry fails. -/
def State.claimInConflict (s : State) (sl : Slot) (v : View) : Effect :=
  if (s.job sl).origin = .learn then (s, [.failEntry sl v.pair .conflict])
  else
    match v.bandFor sl with
    | some b => if s.leavesConflict sl b then (s, []) else (s, [.endRequest sl .conflict])
    | none => (s, [])

/-- The claim a job's entry makes on an OPEN pair: the entry CLAIMED, the view PENDING, the CLAIM handed over (R48). -/
def State.claimOpen (s : State) (sl : Slot) (p : Nat) : Effect :=
  let j := s.job sl
  let e := (s.setJob sl (j.mark p (fun _ => .claimed))).viewTo p .pending
  (e.1.handClaim p j.standing, e.2)

/-- A self pair's record without the claim one axis has entered since the last interval. -/
def View.dropClaim (x : SelfAxis) (v : View) : View :=
  match x with
  | .a => { v with claimA := none }
  | .b => { v with claimB := none }

/-- A self pair's record with a claim of one axis entered (R62). -/
def View.enterClaim (x : SelfAxis) (st : Standing) (v : View) : View :=
  match x with
  | .a => { v with claimA := some st }
  | .b => { v with claimB := some st }

/-- A NEEDED entry decided (R48): what the view of the pair makes of it. A claim that bus-off holds back is due, and waits in its place
(R38, R152). R48 has no row for a view left PENDING by a CLAIM lost
without echo; it is decided as an OPEN one (notes/assumptions/11.md). -/
def State.decideEntry (s : State) (sl : Slot) (p : Nat) : Effect :=
  let j := s.job sl
  if j.active = true ∧ j.entryOf p = some .needed then
    match s.view? p with
    | none => (s, [])
    | some v =>
      match v.other with
      | .self _ _ =>
        if v.gives sl then (s.setJob sl (j.mark p grantStatus), [.learnCheck sl])
        else if v.state = .conflict then s.claimInConflict sl v
        else (s.updView p (fun w => w.enterClaim (w.selfAxis sl) j.standing), [])
      | .peer _ _ _ =>
        if v.claimWaits then (s, [])
        else
          match v.state with
          | .own | .ownWait => (s.setJob sl (j.mark p grantStatus), [.learnCheck sl])
          | .opened | .pending =>
            if s.unheard then (s, [.failEntry sl p .unheard])
            else if s.mayHand v then s.claimOpen sl p
            else (s.recordDue p .claim, [])
          | .peer =>
            if s.unheard then (s, [.failEntry sl p .unheard])
            else if s.mayHand v then ((s.setJob sl (j.mark p (fun _ => .claimed))).handClaim p j.standing, [])
            else (s.recordDue p .claim, [])
          | .queued => (s.setJob sl (j.mark p (fun _ => .claimed)), [])
          | .barred => (s, [.failEntry sl p .peerLost])
          | .conflict => s.claimInConflict sl v
          | .heldA | .heldB => (s, [])
  else (s, [])

/-- Whether a frame on the transmit side is the station's CLAIM of a pair. -/
def isClaimOf (p : Nat) (f : Frame) : Bool := f.kind == kClaim && passagePair f == some p

/-- The first two of what waits behind a pair's frame in flight (R38): the CEDE due is handed over, or else the STAKE due, where the view
is OPEN with the own axis inside; a STAKE due on any other view is cleared, and one of a station that is UNHEARD goes on waiting (R75). -/
def State.serveDue (s : State) (p : Nat) : State :=
  match s.view? p with
  | none => s
  | some v =>
    if s.mayHand v = false then s
    else if v.cedeDue then (s.updView p (fun w => { w with cedeDue := false, waitTimer := none })).handCede p
    else if v.stakeDue = true ∧ s.unheard = false then
      if v.state = .opened ∧ s.ownInside v = true then s.serveDueStake p else s.clearStake p
    else s

/-- What waited behind a pair's frame in flight, served in the order of R38: the cede due, the stake due, the claim decided
afresh, the release test, and the yield evaluation. -/
def State.serve (s : State) (p : Nat) : Effect :=
  match s.view? p with
  | none => (s, [])
  | some v =>
    if s.mayHand v = false then (s, [])
    else (s.serveDue p, if v.cedeDue then [] else [.decide v.slot p, .release p, .evalYield p])

/-- What waited behind a frame that is no longer in flight, after what its end did to the view (R38): the CEDE due and the STAKE due are
handed over before any block acts on the view's change, so that the end of a job which a new envelope brings about finds its release
test behind them; the claim decided afresh, the release test and the yield evaluation follow. -/
def Effect.thenServe (e : Effect) (p : Nat) : Effect := (e.1.serveDue p, e.2 ++ [.serve p])

/-- A pair's CLAIM lost without its echo: nothing is in flight, PENDING becomes OPEN, and what waited is served (R38, R51). -/
def State.loseFlight (s : State) (p : Nat) : Effect :=
  let u := s.updView p (fun w => { w with inFlight := none })
  let e := match u.view? p with
    | some w => if w.state = ViewState.pending then u.viewTo p .opened else (u, [])
    | none => (u, [])
  Effect.thenServe e p

/-- A CLAIM in flight that is withdrawn (R51, R153): dropped while it waits for a general slot, removed from the transmit
side while no attempt of it is in progress, and otherwise followed by a CEDE after its echo. At entry into CONFLICT too the
removal comes before what R58 says of a frame in flight: a CLAIM that is not removed is still sent
(notes/assumptions/36.md). -/
def State.withdrawFlight (s : State) (p : Nat) : Effect :=
  if s.clu.waiting.any (isClaimOf p) then
    (s.setDue (s.clu.due.filter (fun x => !x.frame.any (isClaimOf p)))).loseFlight p
  else if s.bus.attempt.any (isClaimOf p) then (s.oweCede p, [])
  else if s.bus.general.any (isClaimOf p) then
    (s.setBus { s.bus with general := s.bus.general.filter (fun f => !isClaimOf p f) }).loseFlight p
  else (s.oweCede p, [])

/-- The withdrawal of a claim, by its entry's status `st` and the view `v0` it stood against (R51). A claim still NEEDED is dropped with
no frame. A withdrawal from QUEUED that finds a CEDE of the pair in flight needs no other one (notes/assumptions/43.md). -/
def State.withdrawClaim (s : State) (sl : Slot) (p : Nat) (st : EntryStatus) (v0 : ViewState) : Effect :=
  match s.view? p with
  | none => (s, [])
  | some v =>
    match v.other with
    | .self _ _ =>
      let mine := v.selfAxis sl
      (s.updView p (fun w => if w.waiting = some mine then (w.dropClaim mine).noWaiter else w.dropClaim mine), [])
    | .peer _ _ _ =>
      if st ≠ .claimed then (s.dropDue p .claim, [])
      else if v.inFlight = some .claim then s.withdrawFlight p
      else if v0 = .queued then
        let t := s.updView p (fun w => { w with waitTimer := none })
        if v.inFlight = some .cede then (t, [])
        else if s.mayHand v then (t.handCede p, [])
        else (t.oweCede p, [])
      else if v.state = .pending then s.viewTo p .opened
      else (s, [])

/-! ### CONFLICT and the derivation of views -/

/-- A view in CONFLICT tested again on the two intervals (R59, R63). For a peer pair the test is made with a PRESENT peer alone
(R69). -/
def State.retest (s : State) (p : Nat) : Effect :=
  match s.view? p with
  | none => (s, [])
  | some v =>
    if v.state = .conflict then
      match v.other with
      | .peer r _ _ =>
        if s.isPresent r = false then (s, [])
        else
          match s.ownInside v, s.peerInside v with
          | true, true => (s, [])
          | true, false => (s.viewTo p .own).andThen (fun t => (t, [.release p]))
          | false, true => s.viewTo p .peer
          | false, false => s.viewTo p .opened
      | .self sb _ =>
        match s.inside v v.slot, s.inside v sb with
        | true, true => (s, [])
        | true, false => s.viewTo p .heldA
        | false, true => s.viewTo p .heldB
        | false, false => s.viewTo p .opened
    else (s, [])

/-- A STAKE that a derivation calls for: handed over, or held as stake due behind a frame in flight, in bus-off and while
the station is UNHEARD (R38, R60, R75). -/
def State.requestStake (s : State) (p : Nat) : State :=
  match s.view? p with
  | none => s
  | some v =>
    if s.mayHand v && !s.unheard then s.handStake p else s.oweStake p

/-- The view of a pair derived from the peer record and the own axis (R60), or from the two own axes (R63). -/
def State.derive (s : State) (p : Nat) : Effect :=
  match s.view? p with
  | none => (s, [])
  | some v =>
    match v.other with
    | .peer r _ _ =>
      if s.isPresent r = false then s.viewTo p .barred
      else if s.peerHolds v = true ∧ s.peerInside v = true ∧ s.ownInside v = true then s.enterConflict p
      else if s.peerHolds v then s.viewTo p .peer
      else if s.ownInside v then (s.viewTo p .opened).andThen (fun t => (t.requestStake p, []))
      else s.viewTo p .opened
    | .self sb _ =>
      match s.inside v v.slot, s.inside v sb with
      | true, true => s.enterConflict p
      | true, false => s.viewTo p .heldA
      | false, true => s.viewTo p .heldB
      | false, false => s.viewTo p .opened

/-- The pairs of the clearance list, in pair-number order. -/
def State.pairs (s : State) : List Nat := s.clu.views.map (·.pair)

/-- The peer pairs shared with a role (R13). -/
def State.pairsWith (s : State) (r : Role) : List Nat :=
  (s.clu.views.filter (fun v => v.peerRole == some r)).map (·.pair)

/-- The sharing peers of the station (R13): the peer roles of its views. -/
def State.sharingPeers (s : State) : List Role := s.clu.views.filterMap (·.peerRole)

/-! ### The self-pair arbiter -/

/-- A self pair granted to an axis: its entry becomes HELD, and its claim is decided (R62). -/
def State.grantSelf (s : State) (p : Nat) (x : SelfAxis) : Effect :=
  (s.updView p (View.dropClaim x)).viewTo p (heldBy x)

/-- A claim on a self pair made to wait behind the holder: the waiting flag is set, the wait timer starts, the entry is
CLAIMED, and the holder evaluates a yield (R62). -/
def State.waitSelf (s : State) (v : View) (x : SelfAxis) (st : Standing) : Effect :=
  let sl := v.selfSlot x
  let t := s.updView v.pair (fun w =>
    { w.dropClaim x with waiting := some x, waitTimer := some Config.waitTime, waiter := some st, yieldAsked := false })
  (t.setJob sl ((t.job sl).mark v.pair (fun e => if e = .needed then .claimed else e)), [.evalYield v.pair])

/-- The axis that is served first where both claim an open self pair: the lower slot (R11, R62). -/
def View.firstAxis (v : View) : SelfAxis :=
  if slotIndex (v.selfSlot .a) ≤ slotIndex (v.selfSlot .b) then .a else .b

/-- The other axis of a self pair. -/
def SelfAxis.other : SelfAxis → SelfAxis
  | .a => .b
  | .b => .a

/-- The claim an axis has entered on a self pair since the last interval. -/
def View.claimOf (v : View) : SelfAxis → Option Standing
  | .a => v.claimA
  | .b => v.claimB

/-- The arbiter's decision on the claim one axis has entered on a self pair since the last interval (R62). -/
def State.arbitrateAxis (s : State) (p : Nat) (x : SelfAxis) : Effect :=
  match s.view? p with
  | none => (s, [])
  | some w =>
    match w.claimOf x with
    | none => (s, [])
    | some st =>
      if w.state = .opened then s.grantSelf p x
      else if w.state = heldBy x then
        let u := s.updView p (View.dropClaim x)
        (u.setJob (w.selfSlot x) ((u.job (w.selfSlot x)).mark p grantStatus), [.learnCheck (w.selfSlot x)])
      else if w.state = heldBy x.other then s.waitSelf w x st
      else (s, [])

/-- The local arbiter's decision on one self pair at a control interval: the lower slot's claim first (R62). -/
def State.arbitrate (s : State) (p : Nat) : Effect :=
  match s.view? p with
  | none => (s, [])
  | some v =>
    match v.other with
    | .peer _ _ _ => (s, [])
    | .self _ _ => (s.arbitrateAxis p v.firstAxis).andThen (fun t => t.arbitrateAxis p v.firstAxis.other)

end Sys2Proof.Machine
end

