-- ==== Sys2Proof/Machine/Adu.lean ====
section
/-! DEFINITION. The axis drive units (chapter 5): runs, driving and braking, the control interval, hall pulses, stall and
relief, the job timer, and the reference and learn legs; with them the supply monitor's drive set (R133). -/

namespace Sys2Proof.Machine

/-! ### Outputs and states -/

/-- The drive set after a slot has entered or left DRIVING and BRAKING (R108, R133). -/
def State.setDriveSet (s : State) (sl : Slot) (b : Bool) : State :=
  { s with smon := { s.smon with driveSet := s.smon.driveSet.set sl b } }

/-- Whether no axis is in DRIVING or BRAKING (R134). -/
def Smon.driveSetEmpty (m : Smon) : Bool := !m.driveSet.s0 && !m.driveSet.s1 && !m.driveSet.s2

/-- A drive record with its drive off: duty 0, brake on, the direction output kept, the loop in SEEK with LOCK clear, and the
job, stall and blanking timers stopped (R91). -/
def Drive.off (d : Drive) : Drive :=
  { d with
    duty := 0, brake := true, loop := .seek, lock := false, close := 0, vset := 0, jobTimer := none, stallTimer := none,
    blankingTimer := none, stallHeld := false, stop := none }

/-- Drive-off: the drive is turned off, the brake timer starts with 50 ms, and the axis is BRAKING (R91). -/
def State.driveOff (s : State) (sl : Slot) (after : AfterBrake) : State :=
  s.setDrive sl { (s.drive sl).off with axis := .braking, brakeTimer := some Config.brakeTime, afterBrake := after }

/-- An axis comes to IDLE, HOLDING or FAULT: drive off, no brake period running, out of the drive set (R86, R133). An axis
leaving IDLE is an activity event (R89, R140). -/
def State.rest (s : State) (sl : Slot) (st : AxisState) (run : Option Run) : State :=
  let d := s.drive sl
  let s1 := if d.axis = .idle ∧ st ≠ .idle then s.noteActivity else s
  (s1.setDrive sl { d.off with axis := st, brakeTimer := none, afterBrake := .idle, run := run }).setDriveSet sl false

/-- A run ends: the axis is IDLE and the ADU reports the end to the MVC (R108). -/
def State.endRun (s : State) (sl : Slot) (e : RunEnd) : Effect := (s.rest sl .idle none, [.runEnded sl e])

/-! ### Where a run may drive -/

/-- The stop point of a run under the envelope in force; `none` for a run without a target or an axis without a count range
(R26). -/
def State.runStop (s : State) (sl : Slot) (r : Run) (lock : Bool) : Option Int :=
  match s.kindAt sl, s.clu.envelopes.get sl, r.target with
  | some k, .limits lo hi, some t => some (stopPoint r.dir t lo hi (coastAllowance k lock))
  | _, _, _ => none

/-- Whether a run may drive: its stop point lies beyond the count, or it has no target and the condition is open
(R27, R89, R104). A REFERENCE run has no stop point and drives under the condition of R25, on an axis with a count envelope too, which a
calibration write can have made REFERENCED since the run's scene was loaded (R105, R119; notes/assumptions/53.md). -/
def State.mayDrive (s : State) (sl : Slot) (r : Run) (lock : Bool) : Bool :=
  match s.clu.envelopes.get sl with
  | .limits _ _ =>
    match s.runStop sl r lock with
    | some x => beyond r.dir x (s.drive sl).count
    | none => r.origin == .reference && s.conditionFor sl == .opened
  | .opened => r.target.isNone
  | .frozen => false

/-- The distance the job timer of a run allows for (R34). -/
def runDistance (r : Run) (c : Int) : Int :=
  match r.target, r.pulsesLeft with
  | some t, _ => dist t c
  | none, some n => n
  | none, none => Config.spanMax

/-- Whether a claim of the run on a slot is pending or queued. Only a job's own run has claims (R27, R47). -/
def State.runClaims (s : State) (sl : Slot) (r : Run) : Bool :=
  match r.origin with
  | .scene | .jog | .yield => (s.job sl).claimPending
  | .reference | .learn | .relief => false

/-- The outcome of a run that ends on its own: DONE within Kc of its target, BLOCKED_LIMIT if not (R27). -/
def runOutcome (k : Kind) (r : Run) (c : Int) : JobOutcome :=
  match r.target with
  | some t => if dist t c ≤ (params k).coast then .done else .blockedLimit
  | none => .blockedLimit

/-- Entry into DRIVING (R89): direction output, duty 300, brake released, SEEK with LOCK clear, setpoint creep, and fresh
blanking, stall and job timers. The slot joins the drive set, and a sample is taken where the set was empty (R134). -/
def State.enterDriving (s : State) (sl : Slot) (r : Run) : Effect :=
  match s.kindAt sl with
  | none => (s, [])
  | some k =>
    let d := s.drive sl
    let s1 := if d.axis = .idle then s.noteActivity else s
    let s2 := s1.setDrive sl
      { d with
        axis := .driving, dir := r.dir, duty := Config.startDuty, brake := false, loop := .seek, lock := false, close := 0,
        vset := (params k).creep, blankingTimer := some Config.blankingTime, stallTimer := some Config.stallTime,
        jobTimer := some (jobLimit k (runDistance r d.count)).toNat, brakeTimer := none, afterBrake := .idle,
        stallHeld := false, run := some r, stop := s.runStop sl r false }
    (s2.setDriveSet sl true, if s.smon.driveSetEmpty then [.driveEntered] else [])

/-- A run that has not driven ends in the brake period in which it was taken: its end is reported at once, and the axis stays
BRAKING until the brake timer expires (R98, R108). -/
def Drive.unjoined (d : Drive) : Drive := { d with run := none, afterBrake := .idle }

/-- Entry into DRIVING under the supply guard: while the level is CRITICAL or UNKNOWN the run ends SUPPLY instead, reported at
once (R108); the axis is IDLE, or stays in BRAKING where a brake period is running (R98). -/
def State.tryDriving (s : State) (sl : Slot) (r : Run) : Effect :=
  if s.supplyBars then
    if (s.drive sl).axis = .braking ∧ (s.drive sl).brakeTimer.isSome = true then
      (s.setDrive sl (s.drive sl).unjoined, [.runEnded sl (.outcome .supply)])
    else s.endRun sl (.outcome .supply)
  else s.enterDriving sl r

/-- What becomes of a run on an axis that is not being driven: driving, waiting in HOLDING, or ended (R27, R89, R91). -/
def State.testRun (s : State) (sl : Slot) (r : Run) : Effect :=
  match s.kindAt sl with
  | none => (s, [])
  | some k =>
    if s.mayDrive sl r false then s.tryDriving sl r
    else if r.origin = .relief then s.endRun sl (.outcome .obstructed)
    else if r.target.isNone ∨ s.runClaims sl r = true then (s.rest sl .holding (some r), [])
    else s.endRun sl (.outcome (runOutcome k r (s.drive sl).count))

/-- The drive record's REFERENCED flag changed, and the retained record with it; the envelope condition follows, and where the
flag is set a count envelope from the next control interval on (R87). -/
def State.setReferenced (s : State) (sl : Slot) (b : Bool) : State :=
  ((s.setDrive sl { s.drive sl with referenced := b }).writeRetained sl).buildEnvelope sl

/-- What the ADU does at the beginning of a run: a LEARN run clears REFERENCED, whatever the state it is taken in (R106). -/
def State.openRun (s : State) (sl : Slot) (r : Run) : State := if r.origin = .learn then s.setReferenced sl false else s

/-- A run begins on an axis that is not being driven (R89). -/
def State.beginRun (s : State) (sl : Slot) (r : Run) : Effect :=
  if r.target = some ((s.drive sl).count : Int) then (s.openRun sl r).endRun sl (.outcome .done) else (s.openRun sl r).testRun sl r

/-- The relief run of an obstructed drive: 20 counts back from the present count, or 20 pulses where the axis has no count
range; the MVC's record reads RELIEF (R100, R101, R104). -/
def State.beginRelief (s : State) (sl : Slot) : Effect :=
  let d := s.drive sl
  let back : Dir := match d.dir with | .up => .down | .down => .up
  let n : Int := Config.reliefLength
  let r : Run :=
    { origin := .relief, dir := back, speed := .creep, secondLeg := false
      target := if d.hasRange then some (match back with | .up => d.count + n | .down => d.count - n) else none
      pulsesLeft := if d.hasRange then none else some Config.reliefLength }
  (s.setJob sl { s.job sl with present := .relief }).testRun sl r

/-! ### Hand-over of a run -/

/-- The waiting run dropped for a run handed meanwhile, and reported as never started (R90). -/
def State.dropWaiting (s : State) (sl : Slot) : Effect :=
  if (s.drive sl).waitingRun.isSome then (s.setDrive sl { s.drive sl with waitingRun := none }, [.runEnded sl .neverStarted])
  else (s, [])

/-- A run becomes the present run of a BRAKING axis whose last direction it has (R89): it drives at once if it may, and otherwise
is tested at the end of the brake period. So is a run whose target is the count, which R26 would end DONE at once: the axis still
coasts (notes/assumptions/34.md). -/
def State.joinBraking (s : State) (sl : Slot) (r : Run) : Effect :=
  if s.mayDrive sl r false then s.tryDriving sl r
  else (s.setDrive sl { s.drive sl with run := some r, afterBrake := .joined }, [])

/-- A run taken while BRAKING (R89, R90): the present run in the last direction, the waiting run in the other. -/
def State.takeBraking (s : State) (sl : Slot) (r : Run) : Effect :=
  (s.dropWaiting sl).andThen (fun t =>
    if r.dir = (t.drive sl).dir then (t.openRun sl r).joinBraking sl r
    else (t.setDrive sl { t.drive sl with waitingRun := some r }, []))

/-- The run the MVC has handed is taken by the ADU, by its axis state (R89). A run still present on a DRIVING or BRAKING axis, and
the run held on a HOLDING one, ends with no report: R89 names no outcome for it, and the MVC hands a run only after the job before
it has ended (notes/assumptions/38.md). -/
def State.takeRun (s0 : State) (sl : Slot) (r : Run) : Effect :=
  let s := s0.setDrive sl { s0.drive sl with handed := none }
  let d := s.drive sl
  match d.axis with
  | .noAxis => (s, [])
  | .idle => s.beginRun sl r
  | .holding => (s.setDrive sl { d with run := none }).beginRun sl r
  | .braking => s.takeBraking sl r
  | .driving =>
    let t := s.driveOff sl .idle
    (t.setDrive sl { t.drive sl with run := none }).takeBraking sl r
  | .fault =>
    if r.origin = .learn then
      ((s.setDrive sl { d.off with axis := .braking, brakeTimer := some Config.brakeTime, afterBrake := .idle, waitingRun := some r }).setDriveSet sl true,
        if s.smon.driveSetEmpty then [.driveEntered] else [])
    else (s, [.runEnded sl (.outcome .fault)])

/-- The waiting run is taken as from IDLE (R90, R91). -/
def State.beginWaiting (s : State) (sl : Slot) : Effect :=
  match (s.drive sl).waitingRun with
  | none => (s, [])
  | some r => (s.setDrive sl { s.drive sl with waitingRun := none }).beginRun sl r

/-! ### The control interval -/

/-- What follows a drive-off for lack of a way on: a relief run has then ended OBSTRUCTED, any other run is tested again at
the end of the brake period (R91, R101). -/
def afterStop (r : Run) : AfterBrake := if r.origin = .relief then .ended .obstructed else .retest

/-- A new envelope at the ADU (R91, R93, R94): a DRIVING axis recomputes its stop point and stops if it no longer lies beyond
the count; a HOLDING axis makes the test of R27. The allowance is that of LOCK as it stands (R26), so that an envelope handed in the
interval in which LOCK was set moves the stop point on before the next control interval, at which R96 has it move. The spec does not
settle the two against one another, and this is the model's choice (notes/assumptions/49.md). -/
def State.onEnvelope (s : State) (sl : Slot) : Effect :=
  let d := s.drive sl
  match d.axis, d.run with
  | .driving, some r =>
    if s.mayDrive sl r d.lock then (s.setDrive sl { d with stop := s.runStop sl r d.lock }, [])
    else (s.driveOff sl (afterStop r), [])
  | .holding, some r => s.testRun sl r
  | _, _ => (s, [])

/-- The envelope of an axis recomputed and handed to its ADU (R21). -/
def State.handEnvelope (s : State) (sl : Slot) : Effect := (s.buildEnvelope sl).onEnvelope sl

/-- The setpoint of a run at a control interval (R28): a run at creep holds creep. -/
def State.nextSetpoint (s : State) (sl : Slot) (k : Kind) (r : Run) : Int :=
  let d := s.drive sl
  match r.speed with
  | .creep => (params k).creep
  | .code n =>
    let stop := match s.runStop sl r d.lock with | some x => x | none => (d.count : Int)
    setpoint k n (dist stop d.count) d.vset (s.smon.level == .low)

/-- The loop mode, LOCK and close counter that the mode test leaves a run (R96): a run at creep holds SEEK with LOCK clear. -/
def Drive.modeAfter (d : Drive) (r : Run) (e v : Int) : LoopMode × Bool × Nat :=
  if r.speed = .creep then (.seek, false, 0) else modeTest d.loop d.lock d.close e v

/-- Steps 3 to 6 of a control interval in DRIVING: setpoint, measured speed, mode test, duty (R94 to R97). The
stop point moves on at the interval after LOCK is set, and back at the one that clears it; the drive then goes off at once if the
count has reached it (R26, R96). -/
def State.driveLoop (s : State) (sl : Slot) (k : Kind) (r : Run) : State :=
  let d := s.drive sl
  let v := s.nextSetpoint sl k r
  let e := v - measuredSpeed d.pulses
  let m := d.modeAfter r e v
  let lock := d.lock && m.2.1
  if s.mayDrive sl r lock then
    s.setDrive sl
      { d with vset := v, loop := m.1, lock := m.2.1, close := m.2.2, duty := nextDuty k m.1 d.duty e, stop := s.runStop sl r lock }
  else s.driveOff sl (afterStop r)

/-- The pulse history moves on by one place (R88). -/
def State.shiftPulses (s : State) (sl : Slot) : State :=
  let d := s.drive sl
  s.setDrive sl { d with pulses := ⟨0, d.pulses.p0, d.pulses.p1, d.pulses.p2⟩ }

/-- The ADU's own part of a control interval: the envelope the CLU has built for it, the run handed since the last interval,
and the steps of R94 while DRIVING or of R93 while HOLDING (R89, R94). A run handed during a calibration write is taken when
the write completes (R107). -/
def State.aduControl (s0 : State) (sl : Slot) : Effect :=
  match s0.kindAt sl with
  | none => (s0, [])
  | some k =>
    let s := (s0.setEnvelope sl (s0.envelopeFor sl)).markPassed sl
    let d := s.drive sl
    let e : Effect :=
      match d.handed with
      | some r => if s.writingAt sl then (s, []) else s.takeRun sl r
      | none =>
        match d.axis, d.run with
        | .driving, some r =>
          if s.mayDrive sl r d.lock then (s.driveLoop sl k r, []) else (s.driveOff sl (afterStop r), [])
        | .holding, some r => s.testRun sl r
        | _, _ => (s, [])
    (e.1.shiftPulses sl, e.2)

/-! ### Hall pulses -/

/-- The count after one hall pulse, held to 0..8191 (R88). -/
def nextCount (dir : Dir) (c : Nat) : Nat :=
  match dir with
  | .up => if c < Config.countMax then c + 1 else c
  | .down => c - 1

/-- Whether the count has reached or passed a DRIVING axis's stop point, or a relief run its last pulse (R91, R104). -/
def Drive.arrived (d : Drive) : Bool :=
  match d.run with
  | none => false
  | some r =>
    (match r.pulsesLeft with | some n => n == 0 | none => false) ||
    (match d.stop with | some x => !beyond r.dir x d.count | none => false)

/-- One hall pulse at the ADU (R88): the count moves in the drive direction, the pulse is entered in the history and the
retained record written; while DRIVING the stall timer restarts and the drive goes off at the stop point. -/
def State.countPulse (s : State) (sl : Slot) : State :=
  let d := s.drive sl
  let run := match d.run with
    | some r => some (if d.axis = .driving then { r with pulsesLeft := r.pulsesLeft.map (· - 1) } else r)
    | none => none
  let d1 :=
    { d with
      count := nextCount d.dir d.count, pulses := { d.pulses with p0 := d.pulses.p0 + 1 }, run := run
      stallTimer := if d.axis = .driving then some Config.stallTime else d.stallTimer
      stallHeld := if d.axis = .driving then false else d.stallHeld }
  let s1 := (s.setDrive sl d1).writeRetained sl
  if d.axis = .driving ∧ d1.arrived = true then
    s1.driveOff sl (match run with | some r => afterStop r | none => .idle)
  else s1

/-! ### Stall, timers, brake -/

/-- The home stop of the first learn leg: the count is 0 (R106). The axis of a learn leg is UNREFERENCED, so that no retained record
is written here: neither a pulse nor a change of REFERENCED is made (R88, R166). -/
def State.learnHome (s : State) (sl : Slot) : State :=
  let t := s.setDrive sl { s.drive sl with count := 0 }
  (if (t.drive sl).referenced then t.writeRetained sl else t).buildEnvelope sl

/-- A stall (R99): an obstruction in a SCENE, JOG or YIELD job (R100), FAULT in a relief run (R102), the hard stop in a
REFERENCE or LEARN leg (R105, R106). -/
def State.stall (s : State) (sl : Slot) : Effect :=
  let d := s.drive sl
  match d.run with
  | none => (s.driveOff sl .idle, [])
  | some r =>
    match r.origin with
    | .scene | .jog | .yield => (s.driveOff sl .relief, [])
    | .relief => (s.rest sl .fault none, [.runEnded sl (.outcome .fault)])
    | .reference => (((s.setDrive sl { d with count := 0 }).setReferenced sl true).driveOff sl .refDone, [])
    | .learn => if r.secondLeg then (s.driveOff sl (.rawCount d.count), []) else ((s.learnHome sl).driveOff sl .secondLeg, [])

/-- Expiry of the stall timer: a stall once blanking has expired, and held while blanking runs (R99). -/
def State.stallExpiry (s : State) (sl : Slot) : Effect :=
  let d := s.drive sl
  if d.axis = .driving ∧ d.stallTimer.isSome = true then
    if d.blankingTimer.isSome then (s.setDrive sl { d with stallTimer := none, stallHeld := true }, [])
    else s.stall sl
  else (s, [])

/-- Expiry of the blanking timer: a held stall-timer expiry is taken as a stall (R99). -/
def State.blankingExpiry (s : State) (sl : Slot) : Effect :=
  let d := s.drive sl
  if d.axis = .driving ∧ d.blankingTimer.isSome = true then
    let t := s.setDrive sl { d with blankingTimer := none }
    if d.stallHeld then t.stall sl else (t, [])
  else (s, [])

/-- Expiry of the job timer: the run ends TIMEOUT at the end of the brake period, or a relief run puts the axis in FAULT
(R103). -/
def State.jobExpiry (s : State) (sl : Slot) : Effect :=
  let d := s.drive sl
  if d.axis = .driving ∧ d.jobTimer.isSome = true then
    match d.run with
    | some r =>
      if r.origin = .relief then (s.rest sl .fault none, [.runEnded sl (.outcome .fault)])
      else (s.driveOff sl (.ended .timeout), [])
    | none => (s.driveOff sl .idle, [])
  else (s, [])

/-- The end of the brake period (R91): the relief run, the second learn leg, the test of R27 on the present run, or the end
of the run, and then the waiting run, or IDLE. A relief run or a second learn leg goes before a waiting run, which is kept; a present
run that is still active is not tested where a waiting run stands, and is dropped with no report. R91 says neither
(notes/assumptions/39.md). An axis that drives its waiting run does not leave the drive set in between (notes/assumptions/46.md). -/
def State.brakeExpiry (s : State) (sl : Slot) : Effect :=
  let d := s.drive sl
  if d.axis = .braking ∧ d.brakeTimer.isSome = true then
    let t := s.setDrive sl { d with brakeTimer := none }
    let ended (e : RunEnd) : Effect :=
      if d.waitingRun.isSome then (t.setDrive sl { t.drive sl with run := none, afterBrake := .idle }, [.runEnded sl e, .beginWaiting sl])
      else t.endRun sl e
    match d.afterBrake, d.run with
    | .relief, some _ => t.beginRelief sl
    | .secondLeg, some r => t.testRun sl { r with dir := .up, secondLeg := true }
    | .retest, some r | .joined, some r => if d.waitingRun.isSome then t.beginWaiting sl else t.testRun sl r
    | .ended o, _ => ended (.outcome o)
    | .refDone, _ => ended .refComplete
    | .rawCount n, _ => ended (.rawCount n)
    | _, _ => if d.waitingRun.isSome then t.beginWaiting sl else (t.rest sl .idle none, [])
  else (s, [])

/-- The drive set reported CRITICAL: every DRIVING axis's drive goes off at once (R98). -/
def State.stopDrives (s : State) : State :=
  allSlots.foldl (fun t sl => if (t.drive sl).axis = .driving then t.driveOff sl .retest else t) s

end Sys2Proof.Machine
end

