-- ==== Sys2Proof/Machine/Mvc.lean ====
section
/-! DEFINITION. The move controller (chapter 6): the start and the end of a job, claim entries that fail, the scene record
and its RESULT, scenes, jogs, yields and learns, and the causes that end jobs. -/

namespace Sys2Proof.Machine

/-! ### The outgoing RESULT and the scene record -/

/-- The id byte of a RESULT: the scene id, or 14 for a learn (R159). -/
def sceneIdByte : SceneId → Nat
  | .scene n => n
  | .learn => 14

/-- The outcome a settled slot reports; an open one reports NONE (R132). -/
def SlotOutcome.code : SlotOutcome → JobOutcome
  | .ended o => o
  | .absent | .pending => .noJob

/-- The RESULT of a scene or learn from its entry (R132). -/
def SceneEntry.result (e : SceneEntry) : ResultContent :=
  { id := sceneIdByte e.id, requester := e.requester
    outcomes := PerSlot.tabulate (fun sl => outcomeCode (e.slots.get sl).code)
    reasons := PerSlot.tabulate (fun sl => reasonByte (e.slots.get sl).code) }

/-- Whether every slot of an entry has its outcome (R120). -/
def SceneEntry.complete (e : SceneEntry) : Bool := allSlots.all (fun sl => e.slots.get sl != .pending)

/-- A RESULT built and placed in the outgoing list (R120, R132). -/
def State.sendResult (s : State) (e : SceneEntry) : State := s.placeOutgoing (encode s.sender (.result e.result))

def State.setScene (s : State) (a : Option SceneEntry) (es : List SceneEntry) : State :=
  { s with mvc := { s.mvc with active := a, ending := es } }

/-- A slot outcome entered in the ending entry in which the slot is pending; the entries after it, and the entry that is thereby
complete (R113, R120). One entry at most has a slot pending: a job that is still to end keeps its slot pending in the entry it
belongs to, and the outcomes of jobs that had not started are entered at supersession (R116). -/
def settleEnding (sl : Slot) (o : JobOutcome) : List SceneEntry → List SceneEntry × Option SceneEntry
  | [] => ([], none)
  | e :: es =>
    if e.slots.get sl = .pending then
      let e1 := { e with slots := e.slots.set sl (.ended o) }
      if e1.complete then (es, some e1) else (e1 :: es, none)
    else
      let r := settleEnding sl o es
      (e :: r.1, r.2)

/-- A slot outcome entered in the scene record; the entry whose last pending slot it was is reported and cleared
(R113, R120). -/
def State.enterOutcome (s : State) (sl : Slot) (m : Member) (o : JobOutcome) : Effect :=
  match m with
  | .noScene => (s, [])
  | .active =>
    match s.mvc.active with
    | none => (s, [])
    | some e =>
      let e1 := { e with slots := e.slots.set sl (.ended o) }
      if e1.complete then ((s.setScene none s.mvc.ending).sendResult e1, []) else (s.setScene (some e1) s.mvc.ending, [])
  | .ending =>
    let r := settleEnding sl o s.mvc.ending
    let t := s.setScene s.mvc.active r.1
    match r.2 with
    | some e => (t.sendResult e, [])
    | none => (t, [])

/-! ### Entries that fail -/

/-- The outcome a failed claim gives (R114, R130). -/
def Failure.outcome : Failure → JobOutcome
  | .declined r => .declined r
  | .wait => .wait
  | .peerLost => .peerLost
  | .unheard => .unheard
  | .conflict => .conflict

/-- A run of the job on an axis with its target cut back (R50): a reference, learn or relief run keeps its own. -/
def Run.cutBack (r : Run) (b : Band) (span : Int) : Run :=
  match r.origin with
  | .scene | .jog | .yield => { r with target := r.target.map (fun t => cutTarget r.dir t b span) }
  | .reference | .learn | .relief => r

/-- The runs a drive holds with their targets cut back (R50). -/
def Drive.cutBack (d : Drive) (b : Band) : Drive :=
  { d with
    run := d.run.map (fun r => r.cutBack b d.span), waitingRun := d.waitingRun.map (fun r => r.cutBack b d.span)
    handed := d.handed.map (fun r => r.cutBack b d.span) }

/-- The entries of a list from a failed pair on: the pair and every later entry still NEEDED or CLAIMED is FAILED with the
reason (R50). -/
def failFrom (p : Nat) (f : Failure) : List Entry → List Entry
  | [] => []
  | e :: es =>
    if e.pair = p then
      { e with status := .failed f } ::
        es.map (fun x => if x.status = .needed ∨ x.status = .claimed then { x with status := .failed f } else x)
    else e :: failFrom p f es

/-- The entries after a pair that are still NEEDED or CLAIMED (R50). -/
def openAfter (p : Nat) (es : List Entry) : List Entry :=
  ((es.dropWhile (fun e => e.pair != p)).drop 1).filter (fun e => e.status == .needed || e.status == .claimed)

/-- The withdrawals of entries, each with its status and the view as it stands (R51). -/
def State.withdrawals (s : State) (sl : Slot) (es : List Entry) : List Report :=
  es.filterMap (fun e => (s.view? e.pair).map (fun v => Report.withdraw sl e.pair e.status v.state))

/-- Whether an entry can fail with a reason (R49): one still NEEDED or CLAIMED can with any, and one that is HELD with CONFLICT,
which alone takes a held passage from the job. One that has failed keeps its reason, WAIT under a later DECLINE among them
(notes/assumptions/17.md). -/
def EntryStatus.canFail (st : EntryStatus) (f : Failure) : Bool :=
  st == .needed || st == .claimed || (st == .held && f == .conflict)

/-- A claim entry of the active job fails (R50): the first reason is kept, the target is cut back to the near edge of the
band, and the later open entries are withdrawn and fail with it. The failure of an entry ends a learn (R130). -/
def State.failEntry (s : State) (sl : Slot) (p : Nat) (f : Failure) : Effect :=
  let j := s.job sl
  if j.active = true ∧ (j.entryOf p).any (fun st => st.canFail f) = true then
    if j.origin = .learn then
      (s.setJob sl { j.mark p (fun _ => .failed f) with firstFailure := some (j.firstFailure.getD f) },
        [.endRequest sl f.outcome])
    else
      let reports := s.withdrawals sl (openAfter p j.entries)
      let j1 := { j with entries := failFrom p f j.entries, firstFailure := some (j.firstFailure.getD f) }
      match (s.view? p).bind (fun v => v.bandFor sl) with
      | none => (s.setJob sl j1, reports)
      | some b =>
        let d := s.drive sl
        ((s.setJob sl { j1 with target := j1.target.map (fun t => cutTarget j1.dir t b d.span) }).setDrive sl (d.cutBack b),
          reports)
  else (s, [])

/-! ### The end of a job -/

/-- The final outcome of a job (R114): an outcome of DONE or BLOCKED_LIMIT is settled against the requested target and the
first failure; any other stands. -/
def State.settleOutcome (s : State) (sl : Slot) (o : JobOutcome) : JobOutcome :=
  let j := s.job sl
  match s.kindAt sl, j.requested with
  | some k, some t =>
    if o = .done ∨ o = .blockedLimit then
      if dist t (s.drive sl).count ≤ (params k).coast then .done
      else match j.firstFailure with
        | some f => f.outcome
        | none => .blockedLimit
    else o
  | _, _ => o

/-- Whether a job's origin is a scene. -/
def JobOrigin.isScene : JobOrigin → Bool
  | .scene _ => true
  | _ => false

/-- What the end of a YIELD job leaves on the view of the pair it yielded: the claim that waits for the axis then, be it the one the
yield was for or one taken meanwhile, has had its yield, and CHAIN alone can follow (R55, R57, R128). -/
def State.yieldOver (s : State) (sl : Slot) : JobOrigin → State
  | .yield p => s.updView p (fun v => { v with yieldAsked := v.yieldAsked || v.waitedHolder == some sl })
  | .scene _ | .jog | .learn => s

/-- A job ends (R113): its record is free with the outcome, no claim of it is due any longer, the pin is set by a SCENE job that ends DONE (R54), the entries
still open are withdrawn, the CLU tests the pairs of the axis for release and yield, the outcome is entered in the scene
record, and a job that waits for the axis starts. -/
def State.finishJob (s : State) (sl : Slot) (o : JobOutcome) : Effect :=
  let j := s.job sl
  if j.active then
    let openEntries := j.entries.filter (fun e => e.status == .needed || e.status == .claimed)
    let pairs := (s.pairsOf sl).map (·.pair)
    let t := (((s.dropClaims sl).setJob sl { Job.free with outcome := some o }).setPin sl
      (if j.origin.isScene && o == .done then true else s.mvc.pins.get sl)).yieldOver sl j.origin
    (t, s.withdrawals sl openEntries ++ pairs.map .release ++ pairs.map .evalYield
        ++ [.sceneOutcome sl j.member o, .startQueued sl])
  else (s, [])

/-- An end request for the job on a slot (R92, R113): taken once, by the state of the axis. The job has its cause from then on, and
nothing else that the step brings about gives it another outcome. A job whose run is still to be taken, or waits, or holds, or was taken
in the present brake period and has not driven, ends at once (R108); a driven one ends at the end of its brake period; one whose
calibration write is in progress ends when the write completes (R131). A brake period that is to end the run with an outcome of the ADU's
own is left to do so. -/
def State.endRequest (s : State) (sl : Slot) (o : JobOutcome) : Effect :=
  let j := s.job sl
  let d := s.drive sl
  if j.active = true ∧ j.cause = none then
    let marked := s.setJob sl { j with cause := some o }
    if s.writingAt sl then (marked, [])
    else if d.handed.isSome then (marked.setDrive sl { d with handed := none }, [.finishJob sl o])
    else if j.handed = false then (marked, [.finishJob sl o])
    else
      match d.axis with
      | .driving => (marked.driveOff sl (.ended o), [])
      | .braking =>
        if d.waitingRun.isSome then (marked.setDrive sl { d with waitingRun := none }, [.finishJob sl o])
        else
          match d.afterBrake with
          | .ended _ => (s, [])
          | .joined => (marked.setDrive sl d.unjoined, [.finishJob sl o])
          | _ => (marked.setDrive sl { d with afterBrake := .ended o }, [])
      | .holding => (marked.rest sl .idle none, [.finishJob sl o])
      | .noAxis | .idle | .fault => (marked, [.finishJob sl o])
  else (s, [])

/-- End requests for several jobs with one cause (R113). Every request is taken first, and the ends of the jobs, with the releases that
follow them, are reported behind it: a passage that the end of one job gives to another axis finds that axis's job with its cause, so
that at CRITICAL each ends SUPPLY (R137; for the other causes notes/assumptions/29.md). -/
def State.endRequests (s : State) (sls : List Slot) (o : JobOutcome) : Effect := overAll (fun t sl => t.endRequest sl o) sls s

/-! ### The start of a job -/

/-- The bands of an axis, with their pairs, in pair-number order (R13). -/
def State.bandsOf (s : State) (sl : Slot) : List (Nat × Band) :=
  (s.pairsOf sl).filterMap (fun v => (v.bandFor sl).map (fun b => (v.pair, b)))

/-- The crossing list of a move and its target: at most 4 entries, the target cut at the near edge of a fifth (R30). -/
def State.crossingList (s : State) (sl : Slot) (dir : Dir) (t : Int) : List Entry × Int :=
  let d := s.drive sl
  let order := crossingOrder dir d.count t d.span (s.bandsOf sl)
  let entries := (order.take Config.crossingMax).map (fun x => (⟨x.1, .needed⟩ : Entry))
  match order.drop Config.crossingMax with
  | [] => (entries, t)
  | x :: _ => (entries, cutTarget dir t x.2 d.span)

/-- A job record filled for its start, with nothing claimed or handed (R112). -/
def Job.begin (j : Job) : Job :=
  { j with active := true, firstFailure := none, outcome := none, handed := false, cause := none }

/-- A move with a count target starts (R112): direction, pin, crossing list, claims in crossing order, hand-over. -/
def State.startMove (s : State) (sl : Slot) (j : Job) (t : Int) : Effect :=
  let dir : Dir := if ((s.drive sl).count : Int) < t then .up else .down
  let c := s.crossingList sl dir t
  ((s.setPin sl false).setJob sl
      { j.begin with present := .main, requested := some t, target := some c.2, dir := dir, entries := c.1 },
    c.1.map (fun e => Report.decide sl e.pair) ++ [.handRun sl])

/-- A jog without a count target starts: no crossing list, creep (R104, R122). -/
def State.startBlind (s : State) (sl : Slot) (j : Job) (dir : Dir) : Effect :=
  ((s.setPin sl false).setJob sl
      { j.begin with present := .main, requested := none, target := none, dir := dir, speed := .creep, entries := [] },
    [.handRun sl])

/-- A SCENE job starts with its REFERENCE run (R119): down at creep, with no crossing list. The record holds the target as it was
converted at loading (R32); the run has none. -/
def State.startReference (s : State) (sl : Slot) (j : Job) (t : Int) : Effect :=
  ((s.setPin sl false).setJob sl
      { j.begin with
        present := .reference, requested := some t, target := some t, dir := .down, speed := .creep, entries := [] },
    [.handRun sl])

/-- The run of a job, as the MVC hands it (R112, R119): a REFERENCE run has no target. -/
def Job.theRun (j : Job) : Run :=
  { origin :=
      if j.present = .reference then .reference
      else match j.origin with
        | .scene _ => .scene
        | .jog => .jog
        | .yield _ => .yield
        | .learn => .learn
    dir := j.dir, target := if j.present = .reference then none else j.target, speed := j.speed, secondLeg := false
    pulsesLeft := none }

/-- Step 4 of a job start: the run is handed to the ADU, which takes it at the next control interval (R89, R112). The run of a job
that has been given its cause is not handed any more (R113). -/
def State.handRun (s : State) (sl : Slot) : Effect :=
  let j := s.job sl
  if j.active = true ∧ j.handed = false ∧ j.cause = none ∧ j.origin ≠ .learn then
    ((s.setJob sl { j with handed := true }).setDrive sl { s.drive sl with handed := some j.theRun }, [])
  else (s, [])

/-- The LEARN run is handed once every entry is HELD (R130, R131), and not once the job has been given its cause (R113). -/
def State.learnCheck (s : State) (sl : Slot) : Effect :=
  let j := s.job sl
  if j.active = true ∧ j.handed = false ∧ j.cause = none ∧ j.origin = .learn ∧ j.entries.all (fun e => e.status == .held) = true then
    ((s.setJob sl { j with handed := true }).setDrive sl { s.drive sl with handed := some j.theRun }, [])
  else (s, [])

/-- A SCENE job starts on an axis, as the case of R118 that its loading has decided: with a REFERENCE run where the axis was UNREFERENCED
then (R119), though a calibration write has made it REFERENCED while the job waited (R107, R131; notes/assumptions/53.md), and otherwise
to `t`, the target as converted at loading (R32). A DISABLED axis takes its outcome, and one without a position runs REFERENCE. -/
def State.startScene (s : State) (sl : Slot) (id p : Nat) (t : Int) (reference : Bool) : Effect :=
  match s.kindAt sl with
  | none => (s, [.sceneOutcome sl .active .noJob])
  | some _ =>
    let d := s.drive sl
    let j : Job :=
      { Job.free with origin := .scene id, permille := some p, speed := .code sceneCode, standing := .scene, member := .active }
    if d.disabled then (s, [.sceneOutcome sl .active .disabled])
    else if reference = true ∨ d.hasRange = false then s.startReference sl j t
    else s.startMove sl j t

/-- The scene move after the reference run, in the same job record (R119). -/
def State.continueScene (s : State) (sl : Slot) (k : Kind) (p : Nat) : Effect :=
  s.startMove sl { s.job sl with speed := .code sceneCode } (sceneCount k p (s.drive sl).span)

/-- A jog starts (R122): to the far end of the base envelope, or blind where the axis has no count range. -/
def State.startJog (s : State) (sl : Slot) (dir : Dir) : Effect :=
  match s.kindAt sl with
  | none => (s, [])
  | some k =>
    let d := s.drive sl
    let j : Job := { Job.free with origin := .jog, speed := .code jogCode, standing := .jog }
    if d.hasRange then s.startMove sl j (jogTarget k dir d.count d.span) else s.startBlind sl j dir

/-- A learn job starts: its entries are the pairs of the axis in pair-number order, and its run waits for all of them
(R129, R130). -/
def State.startLearn (s : State) (sl : Slot) : Effect :=
  let pairs := (s.pairsOf sl).map (·.pair)
  let j : Job :=
    { Job.free with
      origin := .learn, speed := .creep, standing := .service, member := .active, entries := pairs.map (fun p => ⟨p, .needed⟩) }
  ((s.setPin sl false).setJob sl j.begin, pairs.map (fun p => Report.decide sl p) ++ [.learnCheck sl])

/-- A YIELD job starts at the CLU's request (R57, R128). One that cannot start counts as ended at once. -/
def State.startYield (s : State) (p : Nat) (sl : Slot) : Effect :=
  if s.busy sl then (s, [.evalYield p])
  else
    match s.kindAt sl, (s.view? p).bind (fun v => v.bandFor sl) with
    | some k, some b =>
      match yieldTarget k b (s.drive sl).count (s.drive sl).span with
      | some t => s.startMove sl { Job.free with origin := .yield p, speed := .code yieldCode, standing := .yield } t
      | none => (s, [.evalYield p])
    | _, _ => (s, [.evalYield p])

/-! ### One job after another on an axis -/

/-- A job is to take the place of whatever is on its axis: the old one is ended with the outcome given, and the new one
starts when it has ended (R109, R116, R122, R129). -/
def State.replaceJob (s : State) (sl : Slot) (q : QueuedOrigin) (o : JobOutcome) : Effect :=
  let old : List Report :=
    match s.queuedAt sl with
    | none | some ⟨.jog _, _⟩ => []
    | some x => [.sceneOutcome sl .active (x.cause.getD o)]
  (s.setQueued sl (some ⟨q, none⟩), old ++ [.endRequest sl o, .startQueued sl])

/-- The job that waited for its axis starts, once the axis has no active job; one that a cause has ended meanwhile reports
that cause instead. -/
def State.startQueued (s : State) (sl : Slot) : Effect :=
  match s.queuedAt sl with
  | none => (s, [])
  | some q =>
    if (s.job sl).active then (s, [])
    else
      let t := s.setQueued sl none
      match q.cause with
      | some o =>
        (t, (match q.origin with
             | .jog _ => []
             | .scene _ _ _ _ | .learn => [Report.sceneOutcome sl .active o])
            ++ (t.pairsOf sl).map (fun v => Report.evalYield v.pair))
      | none =>
        match q.origin with
        | .scene id p n reference => t.startScene sl id p n reference
        | .jog dir => t.startJog sl dir
        | .learn => t.startLearn sl

/-- What an end cause makes of a job that waits: a jog is dropped, and a scene's or learn's keeps the first cause. -/
def QueuedStart.endWith (q : QueuedStart) (o : JobOutcome) : Option QueuedStart :=
  match q.origin with
  | .jog _ => none
  | .scene _ _ _ _ | .learn => some { q with cause := some (q.cause.getD o) }

/-! ### Causes that end jobs -/

/-- Every job of the station ends with one outcome: active ones by end requests, waiting ones with the cause
(R124, R127). -/
def State.endAll (s : State) (o : JobOutcome) : Effect :=
  ({ s with mvc := { s.mvc with queued := PerSlot.tabulate (fun sl => (s.queuedAt sl).bind (fun q => q.endWith o)) } },
    [.endRequests (allSlots.filter (fun sl => (s.job sl).active)) o])

/-- The jobs, active and waiting, that a test picks out end with one outcome (R125, R126). -/
def State.endWhere (s : State) (o : JobOutcome) (test : Slot → Kind → Bool) (testQ : Slot → Kind → QueuedOrigin → Bool) : Effect :=
  ({ s with
      mvc := { s.mvc with
        queued := PerSlot.tabulate (fun sl =>
          (s.queuedAt sl).bind (fun q =>
            match s.kindAt sl with
            | some k => if testQ sl k q.origin then q.endWith o else some q
            | none => some q)) } },
    [.endRequests
      (allSlots.filter (fun sl =>
        match s.kindAt sl with
        | some k => (s.job sl).active && test sl k
        | none => false)) o])

/-- Whether a job's target lies outside the seated range (R125). -/
def State.outsideSeated (s : State) (sl : Slot) (k : Kind) : Bool :=
  let j := s.job sl
  match j.origin with
  | .scene _ => seatedKind k && (match j.permille with | some p => decide ((params k).seated < p) | none => false)
  | .yield _ =>
    seatedKind k &&
      (match j.requested with | some t => decide (((params k).seated : Int) < norm t (s.drive sl).span) | none => false)
  | .learn => true
  | .jog => false

/-- The same of a job that waits for its axis (R125). -/
def queuedOutsideSeated (k : Kind) : QueuedOrigin → Bool
  | .scene _ p _ _ => seatedKind k && decide ((params k).seated < p)
  | .learn => true
  | .jog _ => false

/-- The station becomes occupied: the jobs whose targets lie outside the seated range end OCCUPIED (R125). -/
def State.endOccupied (s : State) : Effect :=
  s.endWhere .occupied (fun sl k => s.outsideSeated sl k) (fun _ k q => queuedOutsideSeated k q)

/-- The kinds whose jog is not run while the vehicle is not STILL: TIP and STOW (R8, R122, R126). -/
def stillOnly : Kind → Bool
  | .tip | .stow => true
  | .slide | .back => false

/-- The gateway record has changed: the jobs it bars end VEHICLE (R126). -/
def State.endVehicle (s : State) : Effect :=
  let moving := s.pmon.gateway.speed != .still
  s.endWhere .vehicle
    (fun sl k => match (s.job sl).origin with
      | .scene _ | .yield _ | .learn => !s.stillPark
      | .jog => stillOnly k && moving)
    (fun _ k q => match q with
      | .scene _ _ _ _ | .learn => !s.stillPark
      | .jog _ => stillOnly k && moving)

/-- The level has become CRITICAL, and the ADUs have turned every drive off (R98): every job ends SUPPLY (R127, R137). -/
def State.supplyCritical (s : State) : Effect := s.endAll .supply

/-! ### Runs that end -/

/-- A raw count taken by the MVC (R107, R131): a calibration write begins, its first step clearing the write-complete marker
(R165); or the axis is DISABLED and the learn ends LEARN_FAIL. -/
def State.takeRawCount (s : State) (sl : Slot) (n : Nat) : Effect :=
  if Config.spanMin ≤ n ∧ n ≤ Config.spanMax then
    ({ s with
        rcs := { s.rcs with
          calibration := s.rcs.calibration.set sl { s.rcs.calibration.get sl with marker := false }
          writing := s.rcs.writing.set sl (some n)
          writeTimer := s.rcs.writeTimer.set sl (some Config.calibrationTime) } }, [])
  else
    let t := s.setReferenced sl false
    (t.setDrive sl { t.drive sl with span := 0, disabled := true }, [.envelope sl, .finishJob sl .learnFail])

/-- The ADU's report of the end of a run (R108, R113, R114, R119, R131). A run that never started is one whose job the MVC has
ended before handing the next (R109), so that its report ends nothing. -/
def State.runEnded (s : State) (sl : Slot) (e : RunEnd) : Effect :=
  let j := s.job sl
  if j.active then
    match e with
    | .outcome o =>
      match j.cause with
      | some c => (s, [.finishJob sl c])
      | none => (s, [.finishJob sl (s.settleOutcome sl o)])
    | .refComplete =>
      match s.kindAt sl, j.permille with
      | some k, some p => s.continueScene sl k p
      | _, _ => (s, [.finishJob sl .done])
    | .rawCount n => s.takeRawCount sl n
    | .neverStarted => (s, [])
  else (s, [])

/-! ### Scenes -/

/-- A job that belongs to the active scene now belongs to an ending entry (R110, R116). -/
def Job.toEnding (j : Job) : Job := { j with member := if j.member = .active then .ending else j.member }

/-- A job that waits for its axis is dropped if it is a scene's or a learn's (R116). -/
def QueuedStart.keepJog (q : QueuedStart) : Option QueuedStart :=
  match q.origin with
  | .jog _ => some q
  | .scene _ _ _ _ | .learn => none

/-- A job that waits for its axis is dropped if it is a jog (R116). -/
def QueuedStart.keepScene (q : QueuedStart) : Option QueuedStart :=
  match q.origin with
  | .jog _ => none
  | .scene _ _ _ _ | .learn => some q

/-- The outcome a slot of the superseded scene or learn takes at once: that of a job which still waits for its axis and so never
starts, SUPERSEDED or the cause that had ended it before (R113, R116). -/
def State.neverStarted (s : State) (sl : Slot) : Option JobOutcome :=
  match s.queuedAt sl with
  | some ⟨.scene _ _ _ _, c⟩ | some ⟨.learn, c⟩ => some (c.getD .superseded)
  | some ⟨.jog _, _⟩ | none => none

/-- The entry of the superseded scene or learn, with the outcomes of its jobs that never start (R113, R116). -/
def State.supersededEntry (s : State) (e : SceneEntry) : SceneEntry :=
  { e with
    slots := PerSlot.tabulate (fun sl => match s.neverStarted sl with | some o => .ended o | none => e.slots.get sl) }

/-- Supersession (R116, R129): the active scene or learn moves to an ending entry and its jobs end SUPERSEDED. Where none of its
jobs has started, its RESULT is built at once (R120). -/
def State.supersede (s : State) : Effect :=
  match s.mvc.active with
  | none => (s, [])
  | some e =>
    let e1 := s.supersededEntry e
    let members := allSlots.filter (fun sl => (s.job sl).active && (s.job sl).member == .active)
    let t := { s with
      mvc := { s.mvc with
        active := none, ending := if e1.complete then s.mvc.ending else s.mvc.ending ++ [e1]
        jobs := PerSlot.tabulate (fun sl => (s.job sl).toEnding)
        queued := PerSlot.tabulate (fun sl => (s.queuedAt sl).bind QueuedStart.keepJog) } }
    (if e1.complete then t.sendResult e1 else t, [.endRequests members .superseded])

/-- The scene record opened for a new scene or learn, with its slots pending (R110). -/
def State.openScene (s : State) (id : SceneId) (requester : Nat) (slots : PerSlot SlotOutcome) (learn : Option Slot) : State :=
  s.setScene (some { id, requester, slots, learnSlot := learn }) s.mvc.ending

/-- The gates on the whole scene, in order (R117). -/
def State.sceneGate (s : State) : Option JobOutcome :=
  if !s.stillPark then some .vehicle else if s.supplyBars then some .supply else none

/-- The gates on a learn, in order (R129). -/
def State.learnGate (s : State) : Option JobOutcome :=
  if !s.stillPark then some .vehicle else if s.isOccupied then some .occupied else if s.supplyBars then some .supply else none

/-- The target the scene table gives for a slot of the station, or none: KEEP, or no axis (R14, R15). -/
def State.slotTarget (s : State) (sl : Slot) (id : Nat) : Option (Kind × Nat) :=
  match s.role, s.kindAt sl with
  | some r, some k => (sceneTarget id r k).map (fun p => (k, p))
  | _, _ => none

/-- The gates of a taken scene (R117), and the loading of its slots where it passes them (R118). -/
def State.sceneGates (s : State) (id : Nat) : Effect :=
  match s.sceneGate with
  | some o =>
    (s, allSlots.map (fun sl => Report.sceneOutcome sl .active (if (s.slotTarget sl id).isSome then o else .noJob)))
  | none => (s, allSlots.map (fun sl => .loadSlot sl id))

/-- A slot whose loaded target is refused (R118): the jog or yield on its axis, or the jog that waits for it, ends SUPERSEDED as under a
target that starts a job (R116), and the slot takes the refusal as its outcome. -/
def State.refuseSlot (s : State) (sl : Slot) (o : JobOutcome) : Effect :=
  (s.setQueued sl ((s.queuedAt sl).bind QueuedStart.keepScene), [.endRequest sl .superseded, .sceneOutcome sl .active o])

/-- One slot of a scene, decided by the first case that applies (R118). The target is converted to counts here, as the job is
loaded; on an axis that must first run REFERENCE it is converted again later (R32). -/
def State.loadSlot (s : State) (sl : Slot) (id : Nat) : Effect :=
  match s.slotTarget sl id with
  | none => (s, [.sceneOutcome sl .active .noJob])
  | some (k, p) =>
    if s.isOccupied = true ∧ seatedKind k = true ∧ (params k).seated < p then s.refuseSlot sl .occupied
    else if (s.drive sl).disabled then s.refuseSlot sl .disabled
    else (s, [.replaceJob sl (.scene id p (sceneCount k p (s.drive sl).span) (!(s.drive sl).hasRange)) .superseded])

/-- A SCENE request taken in RUN (R115 to R118). -/
def State.takeScene (s : State) (id requester : Nat) : Effect :=
  let e := s.supersede
  (e.1.openScene (.scene id) requester (.all .pending) none, e.2 ++ [.sceneGates id])

/-- A LEARN request for a slot that holds an axis (R129): refused by a gate with its RESULT at once, or accepted. -/
def State.takeLearn (s : State) (sl : Slot) : Effect :=
  match s.learnGate with
  | some o =>
    (s.sendResult
      { id := .learn, requester := gatewayCode, learnSlot := some sl
        slots := (PerSlot.all (SlotOutcome.ended .noJob)).set sl (.ended o) }, [])
  | none =>
    let e := s.supersede
    (e.1.openScene .learn gatewayCode ((PerSlot.all (SlotOutcome.ended .noJob)).set sl .pending) (some sl),
      e.2 ++ [.replaceJob sl .learn .superseded])

/-! ### Jogs -/

/-- Whether a jog on a slot is refused (R122). -/
def State.jogRefused (s : State) (sl : Slot) (k : Kind) : Bool :=
  s.station != .run || s.supplyBars || (stillOnly k && s.pmon.gateway.speed != .still) || s.writingAt sl

/-- A requested jog (R122): refused, or it ends the active scene or learn and the job on its axis with USER and takes the place of the
latter. -/
def State.jogRequest (s : State) (sl : Slot) (dir : Dir) : Effect :=
  match s.kindAt sl with
  | none => (s, [])
  | some k =>
    if s.jogRefused sl k then (s, [])
    else
      let enders := allSlots.filter (fun x => (s.job x).active && ((s.job x).member == .active || x == sl))
      let waiting := PerSlot.tabulate (fun x =>
        match s.queuedAt x with
        | some ⟨.jog d, c⟩ => some ⟨.jog d, c⟩
        | some q => q.endWith .user
        | none => none)
      ({ s with mvc := { s.mvc with queued := waiting } },
        [.endRequests enders .user, .replaceJob sl (.jog dir) .user])

/-- A debounced change of jog state (R121). -/
def State.jogChange (s : State) (sl : Slot) (j : JogState) : Effect :=
  let old := s.mvc.jogs.get sl
  if old = j then (s, [])
  else
    let s1 := { s with mvc := { s.mvc with jogs := s.mvc.jogs.set sl j } }
    let s2 := match s1.queuedAt sl with
      | some ⟨.jog _, _⟩ => if old = .neutral then s1 else s1.setQueued sl none
      | _ => s1
    let ended : List Report :=
      if old ≠ .neutral ∧ (s2.job sl).active = true ∧ (s2.job sl).origin = .jog then [.endRequest sl .user] else []
    let asked : List Report :=
      match j with
      | .neutral => []
      | .up => [.jogRequest sl .up]
      | .down => [.jogRequest sl .down]
    (s2, ended ++ asked)

/-- A debounced press of ONE (R16): in RUN the one-touch SCENE of the role is built and placed in the outgoing list. -/
def State.onePress (s : State) : State :=
  if s.station = .run then
    match s.role.bind oneTouch with
    | some (id, scope) => s.placeOutgoing (encode s.sender (.scene id scope))
    | none => s
  else s

end Sys2Proof.Machine
end

