-- ==== Sys2Proof/Machine/Operands.lean ====
section
/-! DEFINITION. What the levels on the input pins read as (R1, R144, R176): the operands of the commands that sample. -/

namespace Sys2Proof.Machine

/-- The strap code: ROLE2 is the most significant bit, a strap reads 1 when high (R1, R176). -/
def strapCode (p : StrapPins) : Nat := 4 * p.role2.toNat + 2 * p.role1.toNat + p.role0.toNat

/-- A switch input reads pressed when low (R176). -/
def pressed (level : Bool) : Bool := !level

/-- The raw occupancy sample: MAT reads pressed when low, BUCKLE latched when low, and either makes it occupied
(R144, R176). -/
def rawOccupied (p : OccupancyPins) : Bool := !p.mat || !p.buckle

/-- The jog-up input of a slot's channel. -/
def upPin (p : SwitchPins) : Slot → Bool
  | .s0 => p.jup0 | .s1 => p.jup1 | .s2 => p.jup2

/-- The jog-down input of a slot's channel. -/
def downPin (p : SwitchPins) : Slot → Bool
  | .s0 => p.jdn0 | .s1 => p.jdn1 | .s2 => p.jdn2

/-- The supply sample of a VSENSE level: one code is 0.1 V of motor supply, and above 2.55 V it is 255 (R133, R176). -/
def supplySample (vsense : Nat) : Nat := min vsense 255

/-- A debounced input after one more raw sample: its state changes when the newest `n` samples all read one value that
differs from it (R144). -/
def debounce (n : Nat) (d : Debounce) (raw : Bool) : Debounce :=
  let xs := (raw :: d.samples).take n
  if xs.length = n ∧ xs.all (· == raw) ∧ raw ≠ d.stable then ⟨raw, xs⟩ else ⟨d.stable, xs⟩

/-- The samples a switch and the occupancy input take to change (R144). -/
def switchSamples : Nat := 3
def occupancySamples : Nat := 2

/-- The jog state of two debounced switches: both released, or both pressed, is NEUTRAL (R121). -/
def jogStateOf (up down : Bool) : JogState :=
  match up, down with
  | true, false => .up
  | false, true => .down
  | _, _ => .neutral

end Sys2Proof.Machine
end

