-- ==== Sys2Proof/Machine/Smon.lean ====
section
/-! DEFINITION. The supply monitor (chapter 7): a sample applied to the level, the recovery from CRITICAL, and the sample
period. -/

namespace Sys2Proof.Machine

/-- The level after a sample, from UNKNOWN, OK or LOW (R135). -/
def levelAfter (l : Level) (v : Nat) : Level :=
  if v < 90 then .critical
  else if v < 105 then .low
  else if v < 110 then (if l = .low then .low else .ok)
  else .ok

/-- The level and the recovery counter after one sample (R135, R136). -/
def applySample (l : Level) (recovery v : Nat) : Level × Nat :=
  match l with
  | .critical =>
    if v < 95 then (.critical, 0)
    else if recovery + 1 < 3 then (.critical, recovery + 1)
    else (if v < 110 then .low else .ok, 0)
  | .unknown => (levelAfter .unknown v, 0)
  | .ok => (levelAfter .ok v, 0)
  | .low => (levelAfter .low v, 0)

/-- The sample period in force (R134). -/
def State.samplePeriod (s : State) : Nat :=
  if s.smon.driveSetEmpty then
    match s.amon.mode with
    | .active => Config.sampleActive
    | .quiet => Config.sampleQuiet
  else Config.sampleDriving

/-- One supply sample of the VSENSE level, with the timer restarted (R133, R134). At an entry into CRITICAL the ADUs turn
every drive off at once (R98), and the change is reported to the MVC (R137). -/
def State.takeSample (s : State) (period : Nat) : Effect :=
  let r := applySample s.smon.level s.smon.recovery (supplySample s.vsense)
  let t := { s with smon := { s.smon with level := r.1, recovery := r.2, timer := some period } }
  if r.1 = .critical ∧ s.smon.level ≠ .critical then (t.stopDrives, [.supplyCritical]) else (t, [])

/-- The drive set goes from empty to not empty: a sample at once, and the timer restarted with 10 ms (R134). -/
def State.driveEntered (s : State) : Effect := s.takeSample Config.sampleDriving

end Sys2Proof.Machine
end

