-- ==== Sys2Proof/Machine/Pmon.lean ====
section
/-! DEFINITION. The peer monitor (chapter 4): the peer table and presence, misses-me and UNHEARD, the effects of a peer's
loss and return, reconciliation, role clash and STANDSTILL, the gateway record; and the STATUS the station builds
(sections 8.4 and 9.4). -/

namespace Sys2Proof.Machine

/-! ### STATUS of the station -/

/-- The record of a slot in the station's STATUS (R155). -/
def State.slotStatus (s : State) (sl : Slot) : SlotStatus :=
  match s.kindAt sl with
  | none => { axis := .noAxis, lock := false, referenced := false, disabled := false, dir := .down, interval := ⟨0, 0⟩ }
  | some _ =>
    let d := s.drive sl
    { axis := d.axis, lock := d.lock, referenced := d.referenced, disabled := d.disabled, dir := d.dir
      interval := s.occupiedAt sl }

/-- The scene field of a STATUS: the active scene's id, and 15 for none or a learn (R155, R159). -/
def State.sceneField (s : State) : Nat :=
  match s.mvc.active with
  | some e => (match e.id with | .scene n => n | .learn => 15)
  | none => 15

/-- A STATUS from the state of the blocks as it stands (R155). -/
def State.statusContent (s : State) : StatusContent :=
  { seq := s.pmon.seq, mode := s.amon.mode, occupied := s.isOccupied, unheard := s.unheard, conflict := s.conflictFlag
    clash := s.pmon.clashWindow.isSome, vehicleUnknown := !s.pmon.gateway.known, level := s.smon.level, missSet := s.missSet
    holdSet := s.holdSet, scene := s.sceneField, slots := PerSlot.tabulate s.slotStatus }

/-- Whether an attempt of the STATUS in the slot is in progress (R154). -/
def Bif.statusAttempt (b : Bif) : Bool := b.attempt.any (fun f => f.kind == kStatus)

/-- A STATUS placed in the STATUS slot, or beside it while an attempt of the unsent one is in progress; in bus-off it is
discarded (R154, R156). -/
def Bif.placeStatus (b : Bif) (f : Frame) : Bif :=
  if b.busOff.isSome then b
  else if b.statusAttempt then { b with statusBeside := some f }
  else { b with status := some f }

/-- The status period in force (R142). -/
def statusPeriod : Mode → Nat
  | .active => Config.statusActive
  | .quiet => Config.statusQuiet

/-- A STATUS built and placed, the sequence advanced, and the status timer restarted with the period of the mode
(R142, R154, R155). -/
def State.sendStatus (s : State) : State :=
  let f := encode s.sender (.status s.statusContent)
  { s with
    bus := s.bus.placeStatus f
    pmon := { s.pmon with seq := (s.pmon.seq + 1) % 16, statusTimer := some (statusPeriod s.amon.mode) } }

/-! ### Presence -/

/-- A peer record as it stands after each start (R64). -/
def newPeer (r : Role) : PeerRec :=
  { role := r, state := .absent, origin := .absent, lastSeq := 0, window := [], expectancy := none, mode := .active
    missSet := 0, holdSet := 0, intervals := .all ⟨0, 0⟩, missesMeCount := 0, missesMe := false, forced := false }

/-- The peer table of a role: the five others, in role order (R64). -/
def peerTable (r : Role) : List PeerRec := (allRoles.filter (fun x => x != r)).map newPeer

/-- The expectancy of an advertised mode (R66). -/
def expectancyOf : Mode → Nat
  | .active => Config.expectActive
  | .quiet => Config.expectQuiet

/-- An outcome put into the slot window as its newest entry (R67). -/
def pushHeard (w : List Heard) (h : Heard) : List Heard :=
  let xs := w ++ [h]
  if xs.length > Config.windowSize then xs.drop 1 else xs

/-- The misses in a slot window (R67). -/
def misses (w : List Heard) : Nat := w.countP (fun h => h == .miss)

/-- A PRESENT record enters LOST (R69). -/
def PeerRec.lose (p : PeerRec) : PeerRec :=
  { p with state := .lost, expectancy := none, missesMe := false, missesMeCount := 0 }

/-- Step 1 of a STATUS applied to a record: the presence update (R65 to R69). -/
def PeerRec.hear (p : PeerRec) (seq : Nat) (mode : Mode) : PeerRec :=
  let timed : Timer := some (expectancyOf mode)
  let inOrder : Bool := seq == (p.lastSeq + 1) % 16
  match p.state with
  | .absent => { p with state := .acquiring, origin := .absent, lastSeq := seq, expectancy := timed }
  | .lost => { p with state := .acquiring, origin := .lost, lastSeq := seq, expectancy := timed }
  | .acquiring =>
    if inOrder then
      { p with state := .present, window := List.replicate Config.windowSize .hit, lastSeq := seq, expectancy := timed }
    else { p with lastSeq := seq, expectancy := timed }
  | .present =>
    let w := pushHeard (if inOrder then p.window else pushHeard p.window .miss) .hit
    let q := { p with window := w, lastSeq := seq, expectancy := timed }
    if misses w ≥ 2 then q.lose else q

/-- Step 2: the content loaded (R65). -/
def PeerRec.load (p : PeerRec) (c : StatusContent) : PeerRec :=
  { p with
    mode := c.mode, missSet := c.missSet, holdSet := c.holdSet
    intervals := PerSlot.tabulate (fun sl => (c.slots.get sl).interval) }

/-- The misses-me count of a STATUS applied to a PRESENT record (R74). -/
def PeerRec.countMissesMe (p : PeerRec) (listed : Bool) : PeerRec :=
  if listed = p.missesMe then { p with missesMeCount := 0 }
  else if p.missesMeCount + 1 ≥ 2 then { p with missesMe := listed, missesMeCount := 0 }
  else { p with missesMeCount := p.missesMeCount + 1 }

/-- Expiry of a record's expectancy timer (R66). -/
def PeerRec.expire (p : PeerRec) : PeerRec :=
  match p.state with
  | .acquiring => { p with state := p.origin, expectancy := none }
  | .present =>
    let w := pushHeard p.window .miss
    let q := { p with window := w, expectancy := some (expectancyOf p.mode) }
    if misses w ≥ 2 then q.lose else q
  | .absent | .lost => p

/-- The reports of a change of UNHEARD (R75, R76). -/
def unheardReports (was now : Bool) : List Report :=
  if was = now then [] else if now then [.unheardEntered] else [.unheardCleared]

/-- What the CLU and the start-up logic are told of a record's change of state (R65 step 3, R69, R71, R170). -/
def State.presenceReports (s : State) (r : Role) (was now : Presence) : List Report :=
  if was = .present ∧ now = .lost then (if s.station = .run then [.peerLost r] else [])
  else if was ≠ .present ∧ now = .present then
    (if s.station = .run then [.peerReturned r]
     else if s.station = .sync ∧ s.sharingPeers.all (fun q => s.isPresent q) = true then [.syncExit]
     else [])
  else []

/-- Whether a STATUS shows an axis in a state other than IDLE or NONE (R65, R140). -/
def StatusContent.moving (c : StatusContent) : Bool :=
  allSlots.any (fun sl => (c.slots.get sl).axis != .idle && (c.slots.get sl).axis != .noAxis)

/-- A STATUS applied to a peer's record, in the four steps of R65. Where the loss it brings also ends UNHEARD, the loss acts on the views
before the STAKEs due are served: the spec gives R71 and R76 no order, and this is the model's choice (notes/assumptions/52.md). -/
def State.applyStatus (s : State) (r : Role) (c : StatusContent) : Effect :=
  match s.peer? r with
  | none => (s, [])
  | some p =>
    let q := (p.hear c.seq c.mode).load c
    let t := s.updPeer r (fun _ => q)
    let t1 := if c.moving then t.noteActivity else t
    (t1, t1.presenceReports r p.state q.state ++ unheardReports s.unheard t1.unheard ++ [.peerTests r])

/-- Step 4 of R65: the misses-me count, the tests of each shared pair, and the forced flag cleared. A STATUS that turns an ACQUIRING
record into PRESENT is tested too, with the flag in force if it is set: R65, R72 and R78 have the comparison made, and R79 has none made
by a STATUS that finds the record in another state. That the former are followed is the model's choice (notes/assumptions/48.md). -/
def State.peerTests (s : State) (r : Role) : Effect :=
  match s.peer? r, s.role with
  | some p, some own =>
    if p.state = .present then
      let t := s.updPeer r (fun q => q.countMissesMe (inScope p.missSet own))
      (t, unheardReports s.unheard t.unheard ++ (t.pairsWith r).map .pairTests ++ [.clearForced r])
    else (s, [.clearForced r])
  | _, _ => (s, [])

def State.clearForced (s : State) (r : Role) : State := s.updPeer r (fun q => { q with forced := false })

/-- A receive overrun: every record is marked for forced reconciliation (R79). -/
def State.markForced (s : State) : State :=
  { s with pmon := { s.pmon with peers := s.pmon.peers.map (fun p => { p with forced := true }) } }

/-! ### Loss, return, UNHEARD -/

/-- A claim of the job on a view's own axis, by its entry's status, that fails with its peer or hearing: the entry is withdrawn
against the view as it stood, and fails (R71, R75). -/
def claimFails (v : View) (f : Failure) (st : EntryStatus) : List Report :=
  [.withdraw v.slot v.pair st v.state, .failEntry v.slot v.pair f]

/-- The status of the entry that the active job on a view's own axis has for the pair, where it is of one of the kinds given. -/
def State.entryAmong (s : State) (v : View) (sts : List EntryStatus) : Option EntryStatus :=
  if (s.job v.slot).active then ((s.job v.slot).entryOf v.pair).filter (fun st => sts.contains st) else none

/-- The effect of a peer's loss on one shared view (R71): in PENDING and QUEUED the job's entry fails, be it CLAIMED or still NEEDED
behind a frame in flight, and in PEER a CLAIMED one. -/
def State.loseView (s : State) (p : Nat) : Effect :=
  match s.view? p with
  | none => (s, [])
  | some v =>
    match v.state with
    | .own | .barred | .heldA | .heldB => (s, [])
    | .ownWait => ((s.updView p (fun w => { w with reconcile := 0 })).viewTo p .own).andThen (fun t => (t, [.release p]))
    | .opened | .conflict => (s.updView p (fun w => { w with reconcile := 0 })).viewTo p .barred
    | .pending | .queued =>
      ((s.updView p (fun w => { w with reconcile := 0 })).viewTo p .barred).andThen
        (fun t => (t, (s.entryAmong v [.claimed, .needed]).toList.flatMap (claimFails v .peerLost)))
    | .peer =>
      ((s.updView p (fun w => { w with reconcile := 0 })).viewTo p .barred).andThen
        (fun t => (t, (s.entryAmong v [.claimed]).toList.flatMap (claimFails v .peerLost)))

/-- A record has entered LOST in RUN (R71). -/
def State.peerLost (s : State) (r : Role) : Effect := overAll State.loseView (s.pairsWith r) s

/-- A record has entered PRESENT in RUN: the BARRED views shared with the peer are derived again (R61). -/
def State.peerReturned (s : State) (r : Role) : Effect :=
  overAll State.derive
    ((s.pairsWith r).filter (fun p => match s.view? p with | some v => v.state == .barred | none => false)) s

/-- The station has become UNHEARD: the peer-pair claims pending or queued fail, and those that wait behind a frame in
flight (R75). -/
def State.unheardEntered (s : State) : Effect :=
  (s, s.clu.views.flatMap (fun v =>
    if v.peerRole.isNone then []
    else
      (s.entryAmong v (if v.inFlight.isSome then [.claimed, .needed] else [.claimed])).toList.flatMap (claimFails v .unheard)))

/-- A stake due is served or cleared when the station is no longer UNHEARD (R76); behind a frame in flight or in bus-off it
goes on waiting (R38). -/
def State.serveStake (s : State) (p : Nat) : Effect :=
  match s.view? p with
  | none => (s, [])
  | some v =>
    if v.stakeDue then
      if v.state = .opened ∧ s.ownInside v = true then
        (if s.mayHand v then s.serveDueStake p else s, [])
      else (s.clearStake p, [])
    else (s, [])

/-- The station is no longer UNHEARD: each stake due is served or cleared, in the order in which they fell due (R76, R152). -/
def State.unheardCleared (s : State) : Effect := overAll State.serveStake (s.pairsDue .stake ++ s.pairs) s

/-! ### Reconciliation -/

/-- A view reconciled with the peer's hold bit (R80, R81). -/
def State.reconcile (s : State) (v : View) (held : Bool) : Effect :=
  let p := v.pair
  let afresh (from_ : EntryStatus) (e : Effect) : Effect :=
    e.andThen (fun t =>
      if (t.job v.slot).active = true ∧ (t.job v.slot).entryOf p = some from_ then
        (t.setJob v.slot ((t.job v.slot).mark p (fun _ => .needed)), [.decide v.slot p])
      else (t, []))
  match v.state, held with
  | .opened, true | .pending, true => s.viewTo p .peer
  | .own, true | .ownWait, true =>
    if s.ownInside v then (if s.peerInside v then s.enterConflict p else (s, []))
    else if s.needed v v.slot then afresh .held (s.viewTo p .peer)
    else s.viewTo p .peer
  | .peer, false => s.viewTo p .opened
  | .queued, false => afresh .claimed (s.viewTo p .opened)
  | _, _ => (s, [])

/-- Whether a view disagrees with the peer's hold bit (R78). -/
def mismatch (st : ViewState) (held : Bool) : Bool :=
  match st with
  | .opened | .pending | .own | .ownWait => held
  | .peer | .queued => !held
  | .conflict | .barred | .heldA | .heldB => false

/-- The reconciliation comparison of one shared view with the sender's hold set (R78). -/
def State.compare (s : State) (p : Nat) : Effect :=
  match s.view? p with
  | none => (s, [])
  | some v =>
    let forced := match v.peerRole.bind s.peer? with | some q => q.forced | none => false
    if s.station ≠ .run then (s, [])
    else if mismatch v.state (s.peerHolds v) then
      if v.reconcile + 1 ≥ 2 ∨ forced = true then
        (s.updView p (fun w => { w with reconcile := 0 })).reconcile v (s.peerHolds v)
      else (s.updView p (fun w => { w with reconcile := v.reconcile + 1 }), [])
    else (s.updView p (fun w => { w with reconcile := 0 }), [])

/-- The CONFLICT test of a STATUS (R58). -/
def State.conflictTest (s : State) (p : Nat) : Effect :=
  match s.view? p with
  | none => (s, [])
  | some v =>
    match v.state with
    | .opened | .pending | .own | .ownWait =>
      if s.peerInside v = true ∧ s.ownInside v = true then s.enterConflict p else (s, [])
    | .peer | .queued | .barred | .conflict | .heldA | .heldB => (s, [])

/-- The tests of one shared pair in step 4 of R65, in order: CONFLICT again (R59), CONFLICT (R58), reconciliation (R78). -/
def State.pairTests (s : State) (p : Nat) : Effect :=
  ((s.retest p).andThen (fun t => t.conflictTest p)).andThen (fun t => t.compare p)

/-! ### SYNC exit -/

/-- SYNC exit (R171): the timer stops, the station is in RUN, and every view is derived in the order of the list. -/
def State.syncExit (s : State) : Effect :=
  if s.station = .sync then overAll State.derive s.pairs { s with station := .run, syncTimer := none } else (s, [])

/-! ### Role clash and STANDSTILL -/

/-- A drive at entry into STANDSTILL: duty 0, brake on, no brake period, timers stopped, runs dropped; FAULT stays (R86). R86 and R172
are silent on the loop mode, LOCK, the close-interval counter and the setpoint; that they become SEEK, clear, 0 and 0, as at a drive-off,
is the model's choice (notes/assumptions/51.md). -/
def Drive.still (d : Drive) : Drive :=
  { d.off with
    axis := match d.axis with
      | .driving | .braking | .holding => .idle
      | .noAxis => .noAxis
      | .idle => .idle
      | .fault => .fault
    brakeTimer := none, run := none, waitingRun := none, handed := none, afterBrake := .idle }

/-- A view at entry into STANDSTILL: the frame in flight is lost, and what is due can no longer be sent (R158, R172). -/
def View.still (v : View) : View := { v with inFlight := none, cedeDue := false, stakeDue := false }

/-- Entry into STANDSTILL from SYNC or RUN (R172). R172 is silent on the SYNC timer; it stops too (notes/assumptions/22.md). It comes
before the activity event of the frame that brings it, which the AMON then takes no more (notes/assumptions/54.md). -/
def State.enterStandstill (s : State) : State :=
  { s with
    station := .standstill, syncTimer := none
    adu := PerSlot.tabulate (fun sl => (s.drive sl).still)
    bus := { s.bus with status := none, statusBeside := none, general := [], attempt := none, busOff := none }
    clu := { s.clu with views := s.clu.views.map View.still, due := [] }
    mvc := { s.mvc with outgoing := [] }
    pmon := { s.pmon with statusTimer := none, peers := s.pmon.peers.map (fun p => { p with expectancy := none }) }
    smon := { s.smon with timer := none, driveSet := .all false }
    amon := { s.amon with quiet := none, activityDue := false }
    liu := { s.liu with occupancyTimer := none } }

/-- A role clash: the first in a window starts it and sets the flag, the second enters STANDSTILL (R77). -/
def State.clash (s : State) : State :=
  if s.pmon.clashWindow.isSome then s.enterStandstill
  else { s with pmon := { s.pmon with clashWindow := some Config.clashTime, clashFlag := true } }

/-! ### The gateway record -/

/-- The gateway record changed: speed class, park and known are each reported; the envelopes are rebuilt, the MVC ends the
jobs the record bars, and a change of speed class is an activity event (R21, R84, R126, R140). -/
def State.gatewayTo (s : State) (g : Gateway) : Effect :=
  let old := s.pmon.gateway
  let t := { s with pmon := { s.pmon with gateway := g } }
  let t1 := if old.speed = g.speed then t else t.noteActivity
  if old.speed = g.speed ∧ old.park = g.park ∧ old.known = g.known then (t1, [])
  else
    let e := t1.endVehicle
    (e.1, (s.axisSlots.map Report.envelope) ++ e.2)

/-- The record a VEHICLE of the gateway loads (R82). -/
def gatewayOf (speed : Option SpeedClass) (park : Bool) : Gateway :=
  match speed with
  | some x => { speed := x, park := park, known := true, hold := some Config.holdTime }
  | none => { speed := .moving, park := false, known := false, hold := none }

end Sys2Proof.Machine
end

