-- ==== Sys2Proof/Machine/Cascade.lean ====
section
/-! DEFINITION. How one step is carried through the blocks: each report is taken by its block, the reports that answer it are
taken before the rest, and a yield evaluation is made when nothing else is left (notes/assumptions/5.md). At the end of the
step the AMON takes the activity events (R140, R143). -/

namespace Sys2Proof.Machine

/-- What its block does with a report. -/
def handle (r : Report) (s : State) : Effect :=
  match r with
  | .envelope sl => s.handEnvelope sl
  | .release p => s.release p
  | .evalYield p => s.evalYield p
  | .serve p => s.serve p
  | .serveStake p => if s.unheard then (s, []) else s.serveStake p
  | .retest p => s.retest p
  | .arbitrate p => s.arbitrate p
  | .decide sl p => s.decideEntry sl p
  | .withdraw sl p st v0 => s.withdrawClaim sl p st v0
  | .failEntry sl p f => s.failEntry sl p f
  | .handRun sl => s.handRun sl
  | .learnCheck sl => s.learnCheck sl
  | .aduControl sl => s.aduControl sl
  | .beginWaiting sl => s.beginWaiting sl
  | .driveEntered => s.driveEntered
  | .supplyCritical => s.supplyCritical
  | .endRequest sl o => s.endRequest sl o
  | .endRequests sls o => s.endRequests sls o
  | .runEnded sl e => s.runEnded sl e
  | .finishJob sl o => s.finishJob sl o
  | .replaceJob sl q o => s.replaceJob sl q o
  | .startQueued sl => s.startQueued sl
  | .sceneOutcome sl m o => s.enterOutcome sl m o
  | .sceneGates id => s.sceneGates id
  | .loadSlot sl id => s.loadSlot sl id
  | .startYield p sl => s.startYield p sl
  | .jogRequest sl dir => s.jogRequest sl dir
  | .peerLost r => s.peerLost r
  | .peerReturned r => s.peerReturned r
  | .peerTests r => s.peerTests r
  | .clearForced r => (s.clearForced r, [])
  | .pairTests p => s.pairTests p
  | .unheardEntered => s.unheardEntered
  | .unheardCleared => s.unheardCleared
  | .syncExit => s.syncExit

/-- Whether a report waits until the others of the step have been taken: a yield evaluation, which concerns the claims that
wait once every end, grant and withdrawal of the step has been made (R55). -/
def Report.isLate : Report → Bool
  | .evalYield _ => true
  | _ => false

/-- Reports taken in order, each one's own before the rest, late ones last; at most `n` of them. -/
def cascade : Nat → List Report → List Report → State → State
  | 0, _, _, s => s
  | _ + 1, [], [], s => s
  | n + 1, [], l :: ls, s => cascade n (handle l s).2 ls (handle l s).1
  | n + 1, r :: rs, ls, s =>
    if r.isLate then cascade n rs (ls ++ [r]) s else cascade n ((handle r s).2 ++ rs) ls (handle r s).1

/-- The bound on the reports of one step. No step of a station comes near it (notes/assumptions/5.md). -/
def reportBound : Nat := 1000

/-- The AMON takes the activity events of the step (R140): the quiet timer restarts, and a station in QUIET returns to
ACTIVE, with a STATUS at once and the fast periods (R143). -/
def State.takeActivity (s : State) : State :=
  if s.amon.activityDue then
    let t := { s with amon := { mode := .active, quiet := some Config.quietTime, activityDue := false } }
    match s.amon.mode with
    | .active => t
    | .quiet =>
      let t1 := { t with
        smon := if t.smon.driveSetEmpty then { t.smon with timer := some Config.sampleActive } else t.smon
        liu := { t.liu with occupancyTimer := some Config.occupancyActive } }
      if t1.station = .sync ∨ t1.station = .run then t1.sendStatus else t1
  else s

/-- A step carried to its end: the reports of its effect, then the activity of the step. -/
def settle (e : Effect) : State := (cascade reportBound e.2 [] e.1).takeActivity

end Sys2Proof.Machine
end

