-- ==== Sys2Proof/Machine/Passage.lean ====
section
/-! DEFINITION. The passage frames taken from the receive stream (sections 3.2 and 9.2): the four own echoes and the four
frames of a peer, each with its effect on the view of its pair (R39 to R46). -/

namespace Sys2Proof.Machine

/-- The oldest frame of the receive queue, if it is of a kind and has an echo mark. -/
def State.headIs (s : State) (kind : Nat) (echo : Bool) : Option Frame :=
  match s.bus.rx with
  | [] => none
  | x :: _ => if x.frame.kind = kind ∧ x.echo = echo then some x.frame else none

/-- The receive queue without its oldest frame (R149). -/
def State.popRx (s : State) : State := s.setBus { s.bus with rx := s.bus.rx.drop 1 }

/-- Whether a frame that is no echo bears the latched role: a role clash (R2, R77). -/
def State.isClash (s : State) (f : Frame) : Bool := s.role.isSome && f.sender == s.sender

/-- Whether the blocks act on the receive stream: in SYNC and RUN (R160). -/
def State.taking (s : State) : Bool := s.station == .sync || s.station == .run

/-- The view of a pair has no frame in flight if the frame in flight was of this kind (R37). -/
def View.landed (k : PassageKind) (v : View) : View := if v.inFlight = some k then { v with inFlight := none } else v

/-- The echo of an own passage frame taken: its effect on the view of its pair, if that is a peer pair, and then what waited
behind it, the CEDE due and the STAKE due first of all (R37, R38). Taking it is an activity event (R140). -/
def State.takeEcho (s : State) (kind : Nat) (k : PassageKind) (act : State → View → Effect) : Effect :=
  match s.headIs kind true with
  | none => (s, [])
  | some f =>
    let t := s.popRx
    if t.taking then
      let t1 := t.noteActivity
      match t1.view? (f.byte 0) with
      | none => (t1, [])
      | some v =>
        if v.peerRole.isSome then
          (act (t1.updView v.pair (View.landed k)) (v.landed k)).thenServe v.pair
        else (t1, [])
    else (t, [])

/-- A peer's passage frame taken: a role clash counted (R77), or its effect on the view of its pair, where it was sent by the
pair's peer, and then the test of release that follows a view change (R37, R53). A clash that brings STANDSTILL does so before its
activity event, which the AMON then takes no more: the spec gives no order, and this is the model's choice (notes/assumptions/54.md). -/
def State.takePeer (s : State) (kind : Nat) (act : State → View → Frame → Effect) : Effect :=
  match s.headIs kind false with
  | none => (s, [])
  | some f =>
    let t := s.popRx
    if t.taking then
      if t.isClash f then (t.clash.noteActivity, [])
      else
        let t1 := t.noteActivity
        match t1.view? (f.byte 0) with
        | none => (t1, [])
        | some v =>
          if v.peerRole.map roleCode = some f.sender then
            (act t1 v f).andThen (fun u => (u, if (u.view? v.pair).map (·.state) = some v.state then [] else [.release v.pair]))
          else (t1, [])
    else (t, [])

/-- The echo of the own CLAIM (R39): OWN from OPEN or PENDING, QUEUED from PEER. -/
def State.ownClaim (s : State) (v : View) : Effect :=
  match v.state with
  | .opened | .pending => s.viewTo v.pair .own
  | .peer => s.viewTo v.pair .queued
  | .own | .ownWait | .queued | .barred | .conflict | .heldA | .heldB => (s, [])

/-- A peer CLAIM with its standing (R40). -/
def State.peerClaimed (s : State) (v : View) (st : Standing) : Effect :=
  match v.state with
  | .opened | .pending => s.viewTo v.pair .peer
  | .own =>
    ((s.updView v.pair (fun w => { w with waiter := some st })).viewTo v.pair .ownWait).andThen
      (fun t => (t, [.evalYield v.pair]))
  | .ownWait | .peer | .queued | .barred | .conflict | .heldA | .heldB => (s, [])

/-- The echo of the own CEDE (R41): release, handover, or withdrawal, by the view it finds. -/
def State.ownCede (s : State) (v : View) : Effect :=
  match v.state with
  | .own => s.viewTo v.pair .opened
  | .ownWait | .queued => s.viewTo v.pair .peer
  | .opened | .pending | .peer | .barred | .conflict | .heldA | .heldB => (s, [])

/-- A peer CEDE (R42). -/
def State.peerCeded (s : State) (v : View) : Effect :=
  match v.state with
  | .ownWait | .queued => s.viewTo v.pair .own
  | .peer => s.viewTo v.pair .opened
  | .opened | .pending | .own | .barred | .conflict | .heldA | .heldB => (s, [])

/-- The echo of the own DECLINE (R43). -/
def State.ownDecline (s : State) (v : View) : Effect :=
  match v.state with
  | .ownWait => s.viewTo v.pair .own
  | .opened | .pending | .own | .peer | .queued | .barred | .conflict | .heldA | .heldB => (s, [])

/-- A peer DECLINE with its reason (R44): the claim of the own axis's job for the pair fails with it, and then the new envelope is handed,
so that an axis which holds for no other claim ends its job at once (R123; notes/assumptions/47.md). The entry of a job that started
while an earlier withdrawal CEDE is in flight is still NEEDED, and fails too (notes/assumptions/37.md); one that has failed with WAIT
keeps WAIT (notes/assumptions/17.md). -/
def State.peerDeclined (s : State) (v : View) (r : Reason) : Effect :=
  match v.state with
  | .queued =>
    let e := s.viewTo v.pair .peer
    (e.1, .failEntry v.slot v.pair (.declined r) :: e.2)
  | .opened | .pending | .own | .ownWait | .peer | .barred | .conflict | .heldA | .heldB => (s, [])

/-- The echo of the own STAKE (R45). -/
def State.ownStake (s : State) (v : View) : Effect :=
  match v.state with
  | .opened | .pending => s.viewTo v.pair .own
  | .peer | .queued => if s.peerInside v then s.enterConflict v.pair else s.viewTo v.pair .own
  | .own | .ownWait | .barred | .conflict | .heldA | .heldB => (s, [])

/-- A peer STAKE (R46): a held passage is yielded at once, kept waiting for where a job needs it, and CONFLICT where the own
axis is inside. -/
def State.peerStaked (s : State) (v : View) : Effect :=
  match v.state with
  | .opened | .pending => s.viewTo v.pair .peer
  | .own | .ownWait =>
    if s.ownInside v then s.enterConflict v.pair
    else if s.needed v v.slot then
      (s.setJob v.slot ((s.job v.slot).mark v.pair (fun e => if e = .held then .claimed else e))).viewTo v.pair .queued
    else s.viewTo v.pair .peer
  | .peer | .queued | .barred | .conflict | .heldA | .heldB => (s, [])

/-- OWN_CLAIM_ECHO (R39). -/
def execOwnClaimEcho (vsense : Nat) (s : State) : Host.Outcome State Fault Refusal :=
  .next (settle ((s.withSense vsense).takeEcho kClaim .claim State.ownClaim))

/-- PEER_CLAIM (R40). A CLAIM with an undefined standing is not applied (R37). -/
def execPeerClaim (vsense : Nat) (s : State) : Host.Outcome State Fault Refusal :=
  .next (settle ((s.withSense vsense).takePeer kClaim (fun t v f =>
    match payload f with
    | .claim _ (some st) => t.peerClaimed v st
    | _ => (t, []))))

/-- OWN_CEDE_ECHO (R41). -/
def execOwnCedeEcho (vsense : Nat) (s : State) : Host.Outcome State Fault Refusal :=
  .next (settle ((s.withSense vsense).takeEcho kCede .cede State.ownCede))

/-- PEER_CEDE (R42). -/
def execPeerCede (vsense : Nat) (s : State) : Host.Outcome State Fault Refusal :=
  .next (settle ((s.withSense vsense).takePeer kCede (fun t v _ => t.peerCeded v)))

/-- OWN_DECLINE_ECHO (R43). -/
def execOwnDeclineEcho (vsense : Nat) (s : State) : Host.Outcome State Fault Refusal :=
  .next (settle ((s.withSense vsense).takeEcho kDecline .decline State.ownDecline))

/-- PEER_DECLINE (R44). A DECLINE with an undefined reason is not applied (R37). -/
def execPeerDecline (vsense : Nat) (s : State) : Host.Outcome State Fault Refusal :=
  .next (settle ((s.withSense vsense).takePeer kDecline (fun t v f =>
    match payload f with
    | .decline _ (some r) => t.peerDeclined v r
    | _ => (t, []))))

/-- OWN_STAKE_ECHO (R45). -/
def execOwnStakeEcho (vsense : Nat) (s : State) : Host.Outcome State Fault Refusal :=
  .next (settle ((s.withSense vsense).takeEcho kStake .stake State.ownStake))

/-- PEER_STAKE (R46). -/
def execPeerStake (vsense : Nat) (s : State) : Host.Outcome State Fault Refusal :=
  .next (settle ((s.withSense vsense).takePeer kStake (fun t v _ => t.peerStaked v)))

end Sys2Proof.Machine
end

