-- ==== Sys2Proof/Machine/BusEvents.lean ====
section
/-! DEFINITION. The events of the seat bus interface (chapter 9): receiving, transmission attempts and their ends, bus-off,
the assignment of general slots, and the status timer. -/

namespace Sys2Proof.Machine

/-- Whether the receiver works: in SYNC and RUN outside bus-off, and in STANDSTILL (R156, R158, R177). -/
def State.receiving (s : State) : Bool :=
  (s.station == .sync || s.station == .run || s.station == .standstill) && s.bus.busOff.isNone

/-- FRAME_RECEIVED (R149): a frame another node sent completes. It passes the filter (R148) and enters the queue, or is dropped
with an overrun where the queue holds 8 (R150). No other node's frame completes while an own attempt holds the bus (R147). -/
def execFrameReceived (f : BusFrame) (s : State) : Host.Outcome State Fault Refusal :=
  if s.receiving = true ∧ s.bus.attempt = none ∧ passesFilter f = true then
    if s.bus.rx.length < Config.rxCapacity then
      .next (s.setBus { s.bus with rx := s.bus.rx ++ [⟨⟨f.ident, f.data⟩, false⟩] })
    else if s.station = .standstill then .next s
    else .next s.markForced
  else .next s

/-- The frames the transmit side holds, the general slots in the order placed and the STATUS slot (R151). -/
def Bif.held (b : Bif) : List Frame := b.general ++ b.status.toList

/-- TRANSMISSION_ATTEMPT (R147): the bus is idle, and the frame of lowest identifier is offered, among equals the one placed
first (R151). -/
def execTransmissionAttempt (s : State) : Host.Outcome State Fault Refusal :=
  if s.busOpen = true ∧ s.bus.attempt = none ∧ s.bus.rx.length < Config.rxCapacity then
    .next (s.setBus { s.bus with attempt := lowestFrame s.bus.held })
  else .next s

/-- An attempt that ends without completing: a STATUS that waits beside the slot replaces the old one (R154). -/
def Bif.attemptEnds (b : Bif) : Bif :=
  { b with
    attempt := none
    status := if b.statusAttempt then (if b.statusBeside.isSome then b.statusBeside else b.status) else b.status
    statusBeside := if b.statusAttempt then none else b.statusBeside }

/-- ARBITRATION_LOST (R147): the frame stays, the error count is unchanged. -/
def execArbitrationLost (s : State) : Host.Outcome State Fault Refusal :=
  if s.bus.attempt.isSome then .next (s.setBus s.bus.attemptEnds) else .next s

/-- The transmit error count after an error: 8 more, and nothing more from 128 upward where no node acknowledged (R147). -/
def errorsAfter (n : Nat) (noAck : Bool) : Nat := if noAck && decide (128 ≤ n) then n else n + 8

/-- Entry into bus-off (R156): both queues emptied, the attempt over, and each passage frame that does not still wait with
the CLU lost without echo (R38). -/
def State.enterBusOff (s : State) : State :=
  { s with
    bus := { s.bus with
      rx := [], status := none, statusBeside := none, general := [], attempt := none, busOff := some Config.busOffTime }
    clu := { s.clu with
      views := s.clu.views.map (fun v =>
        if s.clu.waiting.any (fun f => passagePair f == some v.pair) then v else { v with inFlight := none }) } }

/-- ATTEMPT_ERROR (R147): the frame stays, the error count rises, and above 255 the interface enters bus-off (R156). -/
def execAttemptError (noAck : Bool) (s : State) : Host.Outcome State Fault Refusal :=
  if s.bus.attempt.isSome then
    let n := errorsAfter s.bus.errors noAck
    let t := s.setBus { s.bus.attemptEnds with errors := n }
    if n > 255 then .next t.enterBusOff else .next t
  else .next s

/-- The transmit side after a frame has completed: the frame leaves it, and a STATUS beside the slot takes the empty slot
(R147, R151, R154). -/
def Bif.completed (b : Bif) (f : Frame) : Bif :=
  if f.kind = kStatus then { b with attempt := none, status := b.statusBeside, statusBeside := none }
  else { b with attempt := none, general := b.general.erase f }

/-- FRAME_COMPLETED (R147): the echo enters the receive queue and the error count falls by one. -/
def execFrameCompleted (s : State) : Host.Outcome State Fault Refusal :=
  match s.bus.attempt with
  | none => .next s
  | some f => .next (s.setBus { s.bus.completed f with rx := s.bus.rx ++ [⟨f, true⟩], errors := s.bus.errors - 1 })

/-- The decisions of the peer-pair claims that wait for an echo which bus-off has taken, by slot and in crossing order: they were
made before bus-off, and so before any claim recorded as due in it (R38, R48). -/
def State.claimsLost (s : State) : List Report :=
  allSlots.flatMap (fun sl =>
    ((s.job sl).entries.filter (fun e =>
        e.status == .needed && !s.clu.due.contains ⟨e.pair, .claim, none⟩ &&
          (s.view? e.pair).any (fun v => v.peerRole.isSome && v.state != .conflict))).map
      (fun e => .decide sl e.pair))

/-- The decision of a claim recorded as due. -/
def State.decideDue (s : State) (p : Nat) : List Report := (s.view? p).toList.map (fun v => Report.decide v.slot p)

/-- What the CLU does at the rejoin (R38, R157): each CEDE due, each STAKE due and each claim in the order in which they fell due, so
that frames of equal identifier keep that order, the claims of one job that of R48; then the tests of release and of yield,
which are made again and so fall due now, in pair-number order (notes/assumptions/42.md). -/
def State.rejoinReports (s : State) : List Report :=
  (s.pairsDue .cede).map Report.serve ++ (s.pairsDue .stake).map Report.serveStake ++ s.claimsLost
    ++ (s.pairsDue .claim).flatMap s.decideDue ++ s.pairs.map Report.release ++ s.pairs.map Report.evalYield

/-- The interface back on the bus with a count of 0, its overrun reported (R79); no claim is recorded as due any longer. -/
def State.rejoined (s : State) : State :=
  let t := (s.setBus { s.bus with busOff := none, errors := 0 }).markForced
  t.setDue (t.clu.due.filter (fun x => x.kind != .claim || x.frame.isSome))

/-- BUS_OFF_TIMER_EXPIRY (R157): the interface rejoins with a count of 0, reports an overrun (R79), and the blocks hand what
is due as slots permit (R152): the CLU the frames of the whole step, the DECLINE of a yield evaluation among them, and then the MVC its
list. Only a RESULT built in the step itself sends that list ahead (notes/assumptions/42.md). -/
def execBusOffTimerExpiry (vsense : Nat) (s : State) : Host.Outcome State Fault Refusal :=
  if s.bus.busOff.isSome ∧ s.station ≠ .standstill then
    .next (State.assignSlots Config.generalCapacity (settle ((s.withSense vsense).rejoined, s.rejoinReports)))
  else .next s

/-- GENERAL_SLOT_ASSIGNMENT (R152): a free general slot is given to the waiting frame of lowest identifier. -/
def execGeneralSlotAssignment (s : State) : Host.Outcome State Fault Refusal := .next s.assignSlot

/-- STATUS_TIMER_EXPIRY (R142). -/
def execStatusTimerExpiry (s : State) : Host.Outcome State Fault Refusal :=
  if s.pmon.statusTimer.isSome ∧ s.taking = true then .next s.sendStatus else .next s

end Sys2Proof.Machine
end

