-- ==== Sys2Proof/Machine/DriveEvents.lean ====
section
/-! DEFINITION. The events of the axis drive units: the control interval, hall pulses, the brake, stall, blanking and job
timers, and the completion of a calibration write. -/

namespace Sys2Proof.Machine

/-- Whether the station is in START, SYNC or RUN. -/
def State.awake (s : State) : Bool := s.station == .start || s.station == .sync || s.station == .run

/-- The reports of a control interval, in order: the CLU's tests of every pair (R53, R59, R62, R63), then each ADU's steps
(R94). A HOLDING axis that a test or a grant lets drive is DRIVING by the time of its ADU's steps, and makes steps 1 to 6 in the
same interval (notes/assumptions/20.md). -/
def State.intervalReports (s : State) : List Report :=
  s.pairs.map Report.retest ++ s.pairs.map Report.arbitrate ++ s.pairs.map Report.release ++ allSlots.map Report.aduControl

/-- CONTROL_INTERVAL (R94). -/
def execControlInterval (vsense : Nat) (s : State) : Host.Outcome State Fault Refusal :=
  if s.awake then
    let t := s.withSense vsense
    .next (settle (t, t.intervalReports))
  else .next s

/-- A hall pulse on a slot that holds an axis (R88): counted, recorded, and a recomputation cause of the envelope; the MVC
tests the job's progress (R112), but not in STANDSTILL (R172). The spec gives the two no order: the test for PASSED is made first,
on the interval under the envelope from before the pulse (notes/assumptions/40.md). -/
def State.pulse (s : State) (sl : Slot) : Effect :=
  let t := s.countPulse sl
  let t1 := if t.station = .standstill then t else t.markPassed sl
  (t1.buildEnvelope sl, [.envelope sl])

/-- HALL_PULSE (R88): not counted while reset is held, nor on a slot in state NONE (R175). -/
def execHallPulse (slot : Slot) (vsense : Nat) (s : State) : Host.Outcome State Fault Refusal :=
  if s.station ≠ .held ∧ (s.kindAt slot).isSome = true then .next (settle ((s.withSense vsense).pulse slot)) else .next s

/-- BRAKE_TIMER_EXPIRY (R91). -/
def execBrakeTimerExpiry (slot : Slot) (vsense : Nat) (s : State) : Host.Outcome State Fault Refusal :=
  .next (settle ((s.withSense vsense).brakeExpiry slot))

/-- STALL_TIMER_EXPIRY (R99). -/
def execStallTimerExpiry (slot : Slot) (vsense : Nat) (s : State) : Host.Outcome State Fault Refusal :=
  .next (settle ((s.withSense vsense).stallExpiry slot))

/-- BLANKING_TIMER_EXPIRY (R99). -/
def execBlankingTimerExpiry (slot : Slot) (vsense : Nat) (s : State) : Host.Outcome State Fault Refusal :=
  .next (settle ((s.withSense vsense).blankingExpiry slot))

/-- JOB_TIMER_EXPIRY (R103). -/
def execJobTimerExpiry (slot : Slot) (vsense : Nat) (s : State) : Host.Outcome State Fault Refusal :=
  .next (settle ((s.withSense vsense).jobExpiry slot))

/-- The calibration record of a slot with a write complete: the span, the latched role, and last the marker (R165). -/
def State.recordSpan (s : State) (sl : Slot) (n : Nat) : State :=
  { s with
    rcs := { s.rcs with
      calibration := s.rcs.calibration.set sl { span := n, role := s.role, marker := true }
      writing := s.rcs.writing.set sl none
      writeTimer := s.rcs.writeTimer.set sl none } }

/-- The completion of a calibration write (R107, R131, R165): span, DISABLED and REFERENCED change with it, and the learn ends
DONE or with the cause taken meanwhile. -/
def State.writeComplete (s : State) (sl : Slot) (n : Nat) : Effect :=
  let t := s.recordSpan sl n
  let t1 := (t.setDrive sl { t.drive sl with span := n, disabled := false }).setReferenced sl true
  (t1, if t1.station = .run then [.finishJob sl ((t1.job sl).cause.getD .done)] else [])

/-- CALIBRATION_WRITE_COMPLETION (R107). -/
def execCalibrationWriteCompletion (slot : Slot) (vsense : Nat) (s : State) : Host.Outcome State Fault Refusal :=
  match s.rcs.writing.get slot with
  | none => .next s
  | some n => .next (settle ((s.withSense vsense).writeComplete slot n))

end Sys2Proof.Machine
end

