-- ==== Sys2Proof/Machine/Inputs.lean ====
section
/-! DEFINITION. The samples: the supply (R134), the switches (R144) and the occupancy inputs (R145). -/

namespace Sys2Proof.Machine

/-- SAMPLE_TIMER_EXPIRY (R134): a sample, and the timer restarted with the period in force. -/
def execSampleTimerExpiry (vsense : Nat) (s : State) : Host.Outcome State Fault Refusal :=
  if s.smon.timer.isSome then .next (settle ((s.withSense vsense).takeSample s.samplePeriod)) else .next s

/-- The local input unit after one sample of every switch input (R144). -/
def Liu.sampleSwitches (l : Liu) (pins : SwitchPins) : Liu :=
  { l with
    up := PerSlot.tabulate (fun sl => debounce switchSamples (l.up.get sl) (pressed (upPin pins sl)))
    down := PerSlot.tabulate (fun sl => debounce switchSamples (l.down.get sl) (pressed (downPin pins sl)))
    one := debounce switchSamples l.one (pressed pins.one) }

/-- Whether a sample has changed a debounced switch state. -/
def Liu.switchChanged (a b : Liu) : Bool :=
  allSlots.any (fun sl => (a.up.get sl).stable != (b.up.get sl).stable || (a.down.get sl).stable != (b.down.get sl).stable)
    || a.one.stable != b.one.stable

/-- The jog state of a slot by its debounced switches (R121). Where one sample debounces both of them, the jog state makes one change,
from what it was to what the two new states give; R144 reports each change and gives no order (notes/assumptions/35.md). -/
def Liu.jogOf (l : Liu) (sl : Slot) : JogState := jogStateOf (l.up.get sl).stable (l.down.get sl).stable

/-- The effect of one sample of the switches (R144): each debounced change to the MVC, as a jog state (R121) or a press of ONE
(R16), and to the AMON (R140). Where one sample debounces several, the press of ONE is taken first and then the slots in order, and the
two switches of one slot are taken together, as one change of its jog state; the spec gives no order (notes/assumptions/35.md). -/
def State.sampleSwitches (s : State) (pins : SwitchPins) : Effect :=
  let l := s.liu.sampleSwitches pins
  let t := { s with liu := l }
  let t1 := if s.liu.switchChanged l then t.noteActivity else t
  let t2 := if l.one.stable && !s.liu.one.stable then t1.onePress else t1
  ((t2.jogChange .s0 (l.jogOf .s0)).andThen (fun u => u.jogChange .s1 (l.jogOf .s1))).andThen
    (fun u => u.jogChange .s2 (l.jogOf .s2))

/-- Whether the LIU samples: in START, SYNC and RUN (R144). -/
def State.sampling (s : State) : Bool := s.station == .start || s.station == .sync || s.station == .run

/-- SWITCH_SAMPLE (R144). -/
def execSwitchSample (pins : SwitchPins) (vsense : Nat) (s : State) : Host.Outcome State Fault Refusal :=
  if s.sampling then .next (settle ((s.withSense vsense).sampleSwitches pins)) else .next s

/-- The occupancy sample period in force (R145). -/
def occupancyPeriod : Mode → Nat
  | .active => Config.occupancyActive
  | .quiet => Config.occupancyQuiet

/-- The effect of one occupancy sample (R144, R145): a debounced change rebuilds the envelopes (R24), is an activity event
(R140), and when the station becomes occupied ends the jobs outside the seated range (R125). -/
def State.sampleOccupancy (s : State) (pins : OccupancyPins) : Effect :=
  let d := debounce occupancySamples s.liu.occupancy (rawOccupied pins)
  let t := { s with liu := { s.liu with occupancy := d, occupancyTimer := some (occupancyPeriod s.amon.mode) } }
  if d.stable = s.liu.occupancy.stable then (t, [])
  else
    let e : Effect := if d.stable then t.noteActivity.endOccupied else (t.noteActivity, [])
    (e.1, (s.axisSlots.map Report.envelope) ++ e.2)

/-- OCCUPANCY_SAMPLE (R145). -/
def execOccupancySample (pins : OccupancyPins) (vsense : Nat) (s : State) : Host.Outcome State Fault Refusal :=
  if s.liu.occupancyTimer.isSome then .next (settle ((s.withSense vsense).sampleOccupancy pins)) else .next s

end Sys2Proof.Machine
end

