-- ==== Sys2Proof/Machine/Reset.lean ====
section
/-! DEFINITION. Reset, start-up and the retained domain (chapter 10): RESET_RELEASE, RESET_ASSERTION, SYNC_ENTRY,
SYNC_TIMER_EXPIRY and ALWAYS_ON_SUPPLY_LOSS. -/

namespace Sys2Proof.Machine

/-- The span a calibration record gives a slot under a role: the stored span where the record is valid, and 0 if not
(R5, R164). -/
def CalRecord.spanFor (c : CalRecord) (r : Role) : Nat :=
  if c.marker = true ∧ c.role = some r ∧ Config.spanMin ≤ c.span ∧ c.span ≤ Config.spanMax then c.span else 0

/-- Whether a start is warm (R162). -/
def Rcs.warm (x : Rcs) (r : Role) : Bool := x.marker && x.role == some r

/-- The drive record of a slot at START (R85, R164, R166, R167). -/
def Rcs.startDrive (x : Rcs) (r : Role) (sl : Slot) : Drive :=
  match kindOf r sl with
  | none => .blank
  | some _ =>
    let span := (x.calibration.get sl).spanFor r
    let rec0 : Retained := if x.warm r then x.retained.get sl else ⟨0, false⟩
    { Drive.blank with
      axis := .idle, span := span, disabled := span == 0, count := rec0.count, referenced := rec0.referenced && span != 0 }

/-- The store after START: the marker set, the role recorded, and the record of each slot that holds an axis written with the
count and REFERENCED the axis has taken (R166, R167). -/
def Rcs.atStart (x : Rcs) (r : Role) : Rcs :=
  { x with
    marker := true, role := some r
    retained := PerSlot.tabulate (fun sl =>
      match kindOf r sl with
      | none => x.retained.get sl
      | some _ => ⟨(x.startDrive r sl).count, (x.startDrive r sl).referenced⟩) }

/-- The first switch samples (R144, R163). -/
def Liu.firstSamples (pins : SwitchPins) (occ : OccupancyPins) : Liu :=
  { up := PerSlot.tabulate (fun sl => debounce switchSamples .initial (pressed (upPin pins sl)))
    down := PerSlot.tabulate (fun sl => debounce switchSamples .initial (pressed (downPin pins sl)))
    one := debounce switchSamples .initial (pressed pins.one)
    occupancy := debounce occupancySamples .initial (rawOccupied occ)
    occupancyTimer := some Config.occupancyActive }

/-- The envelope of every slot built (R21, R25). -/
def State.buildEnvelopes (s : State) : State :=
  { s with clu := { s.clu with envelopes := PerSlot.tabulate s.envelopeFor } }

/-- The station in START under a valid role, before its first supply sample (R163). -/
def State.started (s : State) (r : Role) (pins : SwitchPins) (occ : OccupancyPins) : State :=
  let b := State.underReset (s.rcs.atStart r) s.pending
  State.buildEnvelopes
    { b with
      station := .start, role := some r
      clu := { b.clu with views := clearanceList r }
      pmon := { b.pmon with peers := peerTable r }
      adu := PerSlot.tabulate (s.rcs.startDrive r)
      amon := { b.amon with quiet := some Config.quietTime }
      liu := Liu.firstSamples pins occ }

/-- RESET_RELEASE (R163): with a valid strap code the work of START; with code 6 or 7 STANDSTILL at once, with no role and
the stores untouched (R173). -/
def execResetRelease (straps : StrapPins) (vsense : Nat) (switches : SwitchPins) (occ : OccupancyPins) (s : State) :
    Host.Outcome State Fault Refusal :=
  if s.station = .held then
    match roleOf (strapCode straps) with
    | none => .next { State.underReset s.rcs s.pending with station := .standstill }
    | some r => .next (settle (((s.started r switches occ).withSense vsense).takeSample Config.sampleActive))
  else .next s

/-- The store after an assertion of reset: a calibration write in progress is broken off, and its record is left without the
write-complete marker (R161, R165). -/
def Rcs.broken (x : Rcs) : Rcs := { x with writing := .all none, writeTimer := .all none }

/-- RESET_ASSERTION (R161): every block's state is lost except the two stores. -/
def execResetAssertion (s : State) : Host.Outcome State Fault Refusal := .next (State.underReset s.rcs.broken s.pending)

/-- The work of entry into SYNC (R168): the first STATUS is built, and the SYNC timer starts with 500 ms. -/
def State.enterSync (s : State) : State :=
  let t := { s with
    station := .sync, syncTimer := some Config.syncTime
    bus := { rx := [], status := none, statusBeside := none, general := [], attempt := none, errors := 0, busOff := none } }
  t.buildEnvelopes.sendStatus

/-- SYNC_ENTRY (R168): from START, once the first supply sample has set the level (R163). -/
def execSyncEntry (s : State) : Host.Outcome State Fault Refusal :=
  if s.station = .start ∧ s.smon.level ≠ .unknown then .next s.enterSync else .next s

/-- SYNC_TIMER_EXPIRY (R170): SYNC exit (R171). -/
def execSyncTimerExpiry (s : State) : Host.Outcome State Fault Refusal :=
  if s.station = .sync ∧ s.syncTimer.isSome = true then .next (settle s.syncExit) else .next s

/-- ALWAYS_ON_SUPPLY_LOSS (R162): the validity marker is lost. What the retained records and the recorded role hold without their supply
the spec does not say; that they stand as they were is the model's choice (notes/assumptions/50.md), and no start reads them behind the
absent marker. -/
def execAlwaysOnSupplyLoss (s : State) : Host.Outcome State Fault Refusal :=
  .next { s with rcs := { s.rcs with marker := false } }

end Sys2Proof.Machine
end

