-- ==== Sys2Proof/Machine/Taken.lean ====
section
/-! DEFINITION. The frames the PMON and the MVC take from the receive stream (R149): STATUS, VEHICLE, SCENE, STOP, LEARN and
RESULT. -/

namespace Sys2Proof.Machine

/-- The oldest frame of the receive queue with its echo mark, if it is of a kind. -/
def State.headOf (s : State) (kind : Nat) : Option RxFrame :=
  match s.bus.rx with
  | [] => none
  | x :: _ => if x.frame.kind = kind then some x else none

/-- A frame of a kind taken whole from the receive queue (R149): in SYNC and RUN a role clash is counted and not otherwise
acted on (R77), and any other frame goes to its block; elsewhere it is passed over (R158, R172). `active` says that taking
the kind is an activity event (R140); of a clash that brings STANDSTILL it is taken no more, STANDSTILL coming first, which is the
model's choice (notes/assumptions/54.md). -/
def State.take (s : State) (kind : Nat) (active : Bool) (act : State → Frame → Bool → Effect) : Effect :=
  match s.headOf kind with
  | none => (s, [])
  | some x =>
    let t := s.popRx
    if t.taking then
      if !x.echo && t.isClash x.frame then (if active then t.clash.noteActivity else t.clash, [])
      else act (if active then t.noteActivity else t) x.frame x.echo
    else (t, [])

/-- A STATUS that is no echo and no clash, applied to its sender's record (R65). -/
def State.statusFrame (s : State) (f : Frame) (echo : Bool) : Effect :=
  match payload f, roleOf f.sender with
  | .status c, some r => if echo then (s, []) else s.applyStatus r c
  | _, _ => (s, [])

/-- A VEHICLE: the gateway's is loaded, a station's is not (R82). -/
def State.vehicleFrame (s : State) (f : Frame) : Effect :=
  match payload f with
  | .vehicle speed park => if f.sender = gatewayCode then s.gatewayTo (gatewayOf speed park) else (s, [])
  | _ => (s, [])

/-- Whether a sender code is a station role or the gateway (R115, R124). -/
def knownSender (n : Nat) : Bool := (roleOf n).isSome || n == gatewayCode

/-- A SCENE: taken as a request in RUN where its sender, id and scope allow (R115). -/
def State.sceneFrame (s : State) (f : Frame) : Effect :=
  match payload f, s.role with
  | .scene id scope, some r =>
    if s.station = .run ∧ knownSender f.sender = true ∧ id ≤ 5 ∧ inScope scope r = true then s.takeScene id f.sender
    else (s, [])
  | _, _ => (s, [])

/-- A STOP: taken in RUN where its sender and scope allow (R124). -/
def State.stopFrame (s : State) (f : Frame) : Effect :=
  match payload f, s.role with
  | .stop scope, some r =>
    if s.station = .run ∧ knownSender f.sender = true ∧ inScope scope r = true then s.endAll .stop else (s, [])
  | _, _ => (s, [])

/-- The slot of a number, if it is one (R3). -/
def slotOf : Nat → Option Slot
  | 0 => some .s0 | 1 => some .s1 | 2 => some .s2
  | _ => none

/-- A LEARN: taken in RUN from the gateway, for the latched role and a slot that holds an axis (R129). -/
def State.learnFrame (s : State) (f : Frame) : Effect :=
  match payload f, s.role with
  | .learn role slot, some r =>
    if s.station = .run ∧ f.sender = gatewayCode ∧ role = roleCode r then
      match slotOf slot with
      | some sl => if (s.kindAt sl).isSome then s.takeLearn sl else (s, [])
      | none => (s, [])
    else (s, [])
  | _, _ => (s, [])

/-- STATUS_TAKEN (R65). -/
def execStatusTaken (vsense : Nat) (s : State) : Host.Outcome State Fault Refusal :=
  .next (settle ((s.withSense vsense).take kStatus false State.statusFrame))

/-- VEHICLE_TAKEN (R82). -/
def execVehicleTaken (vsense : Nat) (s : State) : Host.Outcome State Fault Refusal :=
  .next (settle ((s.withSense vsense).take kVehicle false (fun t f _ => t.vehicleFrame f)))

/-- SCENE_TAKEN (R115). -/
def execSceneTaken (vsense : Nat) (s : State) : Host.Outcome State Fault Refusal :=
  .next (settle ((s.withSense vsense).take kScene true (fun t f _ => t.sceneFrame f)))

/-- STOP_TAKEN (R124). -/
def execStopTaken (vsense : Nat) (s : State) : Host.Outcome State Fault Refusal :=
  .next (settle ((s.withSense vsense).take kStop true (fun t f _ => t.stopFrame f)))

/-- LEARN_TAKEN (R129). -/
def execLearnTaken (vsense : Nat) (s : State) : Host.Outcome State Fault Refusal :=
  .next (settle ((s.withSense vsense).take kLearn true (fun t f _ => t.learnFrame f)))

/-- RESULT_TAKEN (R149): passed over, but for the role-clash test (R77). -/
def execResultTaken (s : State) : Host.Outcome State Fault Refusal :=
  .next (settle (s.take kResult false (fun t _ _ => (t, []))))

end Sys2Proof.Machine
end

