-- ==== Sys2Proof/Machine/Timers.lean ====
section
/-! DEFINITION. The timers of the PMON, the CLU and the AMON: expectancy (R66), clash window (R77), hold (R83), wait (R52) and
quiet (R141). -/

namespace Sys2Proof.Machine

/-- EXPECTANCY_TIMER_EXPIRY (R66) of one peer's record. Where the loss of the peer also ends UNHEARD, the loss acts on the views before
the STAKEs due are served: the spec gives R71 and R76 no order, and this is the model's choice (notes/assumptions/52.md). -/
def execExpectancyTimerExpiry (peer : Role) (vsense : Nat) (s : State) : Host.Outcome State Fault Refusal :=
  match s.peer? peer with
  | none => .next s
  | some p =>
    if p.expectancy.isSome ∧ s.taking = true then
      let q := p.expire
      let t := (s.withSense vsense).updPeer peer (fun _ => q)
      .next (settle (t, t.presenceReports peer p.state q.state ++ unheardReports s.unheard t.unheard))
    else .next s

/-- CLASH_WINDOW_EXPIRY (R77): the window stops and the flag clears. -/
def execClashWindowExpiry (s : State) : Host.Outcome State Fault Refusal :=
  if s.pmon.clashWindow.isSome ∧ s.taking = true then
    .next { s with pmon := { s.pmon with clashWindow := none, clashFlag := false } }
  else .next s

/-- HOLD_TIMER_EXPIRY (R83): the gateway record degrades. -/
def execHoldTimerExpiry (vsense : Nat) (s : State) : Host.Outcome State Fault Refusal :=
  if s.pmon.gateway.hold.isSome ∧ s.taking = true then .next (settle ((s.withSense vsense).gatewayTo .initial)) else .next s

/-- What the expiry of a view's wait timer fails: the own axis's claim of a peer pair, or the waiting axis's of a self pair,
with WAIT (R52, R62). -/
def State.waitExpired (s : State) (v : View) : Effect :=
  let t := s.updView v.pair (fun w => { w with waitTimer := none })
  match v.other with
  | .peer _ _ _ => (t, [.withdraw v.slot v.pair .claimed v.state, .failEntry v.slot v.pair .wait])
  | .self _ _ =>
    match v.waiting with
    | some x => (t, [.withdraw (v.selfSlot x) v.pair .claimed v.state, .failEntry (v.selfSlot x) v.pair .wait])
    | none => (t, [])

/-- WAIT_TIMER_EXPIRY (R52) of one pair's view. -/
def execWaitTimerExpiry (pair : Nat) (vsense : Nat) (s : State) : Host.Outcome State Fault Refusal :=
  match s.view? pair with
  | none => .next s
  | some v =>
    if v.waitTimer.isSome ∧ s.station = .run then .next (settle ((s.withSense vsense).waitExpired v)) else .next s

/-- Whether an own axis keeps the station ACTIVE: DRIVING, BRAKING or HOLDING (R141). -/
def State.anyMoving (s : State) : Bool :=
  allSlots.any (fun sl =>
    (s.drive sl).axis == .driving || (s.drive sl).axis == .braking || (s.drive sl).axis == .holding)

/-- QUIET_TIMER_EXPIRY (R141): restarted while an axis moves or holds, and otherwise the mode becomes QUIET. -/
def execQuietTimerExpiry (s : State) : Host.Outcome State Fault Refusal :=
  if s.amon.quiet.isSome ∧ s.amon.mode = .active then
    if s.anyMoving then .next { s with amon := { s.amon with quiet := some Config.quietTime } }
    else .next { s with amon := { s.amon with mode := .quiet, quiet := none } }
  else .next s

end Sys2Proof.Machine
end

