-- ==== Sys2Proof/Machine/Dispatch.lean ====
section
/-! DEFINITION. One arm per command: each calls its meaning. -/

namespace Sys2Proof.Machine

def exec (i : Instr) (s : State) : Host.Outcome State Fault Refusal :=
  match i with
  | .resetRelease straps vsense switches occ => Sys2Proof.Machine.execResetRelease straps vsense switches occ s
  | .resetAssertion => Sys2Proof.Machine.execResetAssertion s
  | .syncEntry => Sys2Proof.Machine.execSyncEntry s
  | .syncTimerExpiry => Sys2Proof.Machine.execSyncTimerExpiry s
  | .ownClaimEcho vsense => Sys2Proof.Machine.execOwnClaimEcho vsense s
  | .peerClaim vsense => Sys2Proof.Machine.execPeerClaim vsense s
  | .ownCedeEcho vsense => Sys2Proof.Machine.execOwnCedeEcho vsense s
  | .peerCede vsense => Sys2Proof.Machine.execPeerCede vsense s
  | .ownDeclineEcho vsense => Sys2Proof.Machine.execOwnDeclineEcho vsense s
  | .peerDecline vsense => Sys2Proof.Machine.execPeerDecline vsense s
  | .ownStakeEcho vsense => Sys2Proof.Machine.execOwnStakeEcho vsense s
  | .peerStake vsense => Sys2Proof.Machine.execPeerStake vsense s
  | .statusTaken vsense => Sys2Proof.Machine.execStatusTaken vsense s
  | .vehicleTaken vsense => Sys2Proof.Machine.execVehicleTaken vsense s
  | .sceneTaken vsense => Sys2Proof.Machine.execSceneTaken vsense s
  | .stopTaken vsense => Sys2Proof.Machine.execStopTaken vsense s
  | .learnTaken vsense => Sys2Proof.Machine.execLearnTaken vsense s
  | .resultTaken => Sys2Proof.Machine.execResultTaken s
  | .frameReceived f => Sys2Proof.Machine.execFrameReceived f s
  | .transmissionAttempt => Sys2Proof.Machine.execTransmissionAttempt s
  | .arbitrationLost => Sys2Proof.Machine.execArbitrationLost s
  | .attemptError noAck => Sys2Proof.Machine.execAttemptError noAck s
  | .frameCompleted => Sys2Proof.Machine.execFrameCompleted s
  | .busOffTimerExpiry vsense => Sys2Proof.Machine.execBusOffTimerExpiry vsense s
  | .generalSlotAssignment => Sys2Proof.Machine.execGeneralSlotAssignment s
  | .statusTimerExpiry => Sys2Proof.Machine.execStatusTimerExpiry s
  | .expectancyTimerExpiry peer vsense => Sys2Proof.Machine.execExpectancyTimerExpiry peer vsense s
  | .clashWindowExpiry => Sys2Proof.Machine.execClashWindowExpiry s
  | .holdTimerExpiry vsense => Sys2Proof.Machine.execHoldTimerExpiry vsense s
  | .waitTimerExpiry pair vsense => Sys2Proof.Machine.execWaitTimerExpiry pair vsense s
  | .controlInterval vsense => Sys2Proof.Machine.execControlInterval vsense s
  | .hallPulse slot vsense => Sys2Proof.Machine.execHallPulse slot vsense s
  | .brakeTimerExpiry slot vsense => Sys2Proof.Machine.execBrakeTimerExpiry slot vsense s
  | .stallTimerExpiry slot vsense => Sys2Proof.Machine.execStallTimerExpiry slot vsense s
  | .blankingTimerExpiry slot vsense => Sys2Proof.Machine.execBlankingTimerExpiry slot vsense s
  | .jobTimerExpiry slot vsense => Sys2Proof.Machine.execJobTimerExpiry slot vsense s
  | .calibrationWriteCompletion slot vsense => Sys2Proof.Machine.execCalibrationWriteCompletion slot vsense s
  | .quietTimerExpiry => Sys2Proof.Machine.execQuietTimerExpiry s
  | .sampleTimerExpiry vsense => Sys2Proof.Machine.execSampleTimerExpiry vsense s
  | .switchSample pins vsense => Sys2Proof.Machine.execSwitchSample pins vsense s
  | .occupancySample pins vsense => Sys2Proof.Machine.execOccupancySample pins vsense s
  | .alwaysOnSupplyLoss => Sys2Proof.Machine.execAlwaysOnSupplyLoss s

end Sys2Proof.Machine
end

