-- ==== Sys2Proof/Safety.lean ====
section
/-! DEFINITION. What counts as a safe state, in the terms the statements use: the bridge outputs off outside DRIVING, the speed
loop and the drive timers at rest there, no drive under a CRITICAL supply, every axis inside its envelope and off the bands whose
passage it does not hold, the bus interface within its capacities, the peer records and the two stores sound. Beside them, what
the reports of one step leave as it was. -/

namespace Sys2Proof.Machine

/-! ### Drives -/

/-- A drive whose outputs are off unless it is DRIVING, with its duty in 0..1000 (R86, R97). -/
def Drive.outputsSafe (d : Drive) : Prop :=
  0 ≤ d.duty ∧ d.duty ≤ 1000 ∧ (d.axis ≠ .driving → d.duty = 0 ∧ d.brake = true)

/-- The loop of a drive: outside DRIVING in SEEK with LOCK clear, the close counter 0 and the setpoint 0 (R91, R102); LOCK only in
TRACK (R96); the setpoint never below 0 (R28). -/
def Drive.loopSound (d : Drive) : Prop :=
  (d.axis ≠ .driving → d.loop = .seek ∧ d.lock = false ∧ d.close = 0 ∧ d.vset = 0) ∧ (d.lock = true → d.loop = .track) ∧ 0 ≤ d.vset

/-- The timers that run only while a drive drives are stopped outside DRIVING (R86, R91, R99, R103). -/
def Drive.timersSound (d : Drive) : Prop :=
  d.axis ≠ .driving → d.jobTimer = none ∧ d.stallTimer = none ∧ d.blankingTimer = none

/-- A drive record that keeps R28, R86, R91, R96, R97 and R103. -/
def Drive.sound (d : Drive) : Prop := d.outputsSafe ∧ d.loopSound ∧ d.timersSound

/-- Every channel's drive record is sound. -/
def State.DrivesSound (s : State) : Prop := ∀ sl : Slot, (s.drive sl).sound

/-- No axis is DRIVING while the supply level is CRITICAL or UNKNOWN (R98). -/
def State.SupplyHolds (s : State) : Prop := s.supplyBars = true → ∀ sl : Slot, (s.drive sl).axis ≠ .driving

/-- The recovery counter is 0 whenever the level is not CRITICAL, and below 3 (R136). -/
def State.RecoverySound (s : State) : Prop :=
  (s.smon.level ≠ .critical → s.smon.recovery = 0) ∧ s.smon.recovery < 3

/-! ### Envelopes -/

/-- Whether a count range stops short of a band that a count stands below or above (R22). -/
def clearOf (b : Band) (c S lo hi : Int) : Prop :=
  ((staticInterval c S).high < (b.x1 : Int) → hi ≤ belowCut b S) ∧ ((b.x2 : Int) < (staticInterval c S).low → aboveCut b S ≤ lo)

/-- The envelope of a slot's axis as R21, R22 and R25 have it. A count range is that of an axis with a position, holds its count,
and stops short of each band whose passage the axis does not hold and which it stands below or above. The condition is open only
while every pair of the axis gives it the passage. -/
def State.EnvelopeSound (s : State) (sl : Slot) : Prop :=
  match s.clu.envelopes.get sl with
  | .limits lo hi =>
    (s.drive sl).hasRange = true ∧ lo ≤ (s.drive sl).count ∧ ((s.drive sl).count : Int) ≤ hi ∧
      ∀ b ∈ s.unheldBands sl, clearOf b (s.drive sl).count (s.drive sl).span lo hi
  | .opened => ∀ v ∈ s.pairsOf sl, v.gives sl = true
  | .frozen => True

/-- Every axis has a sound envelope, and no pair stands twice on the clearance list (R12). -/
def State.EnvelopesSound (s : State) : Prop :=
  (s.clu.views.map (·.pair)).Nodup ∧ ∀ sl : Slot, (s.kindAt sl).isSome = true → s.EnvelopeSound sl

/-- The figure of an envelope bound in permille, as the occupied interval shows it: held to 0..1000 (R20). -/
def figure (x : Int) : Int := max 0 (min 1000 x)

/-- The occupied interval of a slot's axis as R20 has it. For an axis with a position it lies in 0..1000, contains the static
interval of its count, and lies within its count envelope, all held to 0..1000; for an axis without one it is [0, 1000]. -/
def State.IntervalSound (s : State) (sl : Slot) : Prop :=
  let d := s.drive sl
  let i := s.occupiedAt sl
  if d.hasRange = true then
    0 ≤ i.low ∧ i.low ≤ i.high ∧ i.high ≤ 1000 ∧
      i.low ≤ figure (staticInterval d.count d.span).low ∧ figure (staticInterval d.count d.span).high ≤ i.high ∧
      ∀ lo hi, s.clu.envelopes.get sl = .limits lo hi →
        figure (lo * 1000 / d.span) ≤ i.low ∧ i.high ≤ figure (-((-(hi * 1000)) / d.span))
  else i = ⟨0, 1000⟩

/-- An axis with a count envelope does not come into a band whose passage it does not hold (R36): while its count stands outside the
band, so does its occupied interval, reach included. A count above a band that ends at the far stop lies beyond the span, and shows
1000. -/
def State.KeepsOut (s : State) (sl : Slot) : Prop :=
  ∀ lo hi, s.clu.envelopes.get sl = .limits lo hi → ∀ b ∈ s.unheldBands sl,
    let i := staticInterval (s.drive sl).count (s.drive sl).span
    i.high < (b.x1 : Int) ∨ (b.x2 : Int) < i.low ∧ b.x2 < 1000 → (s.occupiedAt sl).meets b = false

/-! ### The bus interface -/

/-- The capacities of the bus interface (R147, R149, R151): an attempt in progress leaves room for its echo. -/
def Bif.bounded (b : Bif) : Prop :=
  b.rx.length ≤ Config.rxCapacity ∧ b.general.length ≤ Config.generalCapacity ∧
    (b.attempt.isSome = true → b.rx.length < Config.rxCapacity)

/-- The bus interface within its capacities, and the outgoing list within its own (R111). -/
def State.BusBounded (s : State) : Prop := s.bus.bounded ∧ s.mvc.outgoing.length ≤ Config.outgoingCapacity

/-! ### Peers and stores -/

/-- A peer record in the bounds of R64 to R67 and R74: the window holds at most five outcomes, a PRESENT record's window fewer
than two misses, the misses-me counter is 0 or 1, an ACQUIRING record comes from ABSENT or LOST, and the expectancy timer is
stopped in ABSENT and LOST. -/
def PeerRec.sound (p : PeerRec) : Prop :=
  p.window.length ≤ Config.windowSize ∧ (p.state = .present → misses p.window < 2) ∧ p.missesMeCount ≤ 1
    ∧ (p.origin = .absent ∨ p.origin = .lost) ∧ (p.state = .absent ∨ p.state = .lost → p.expectancy = none)

/-- Every peer record sound. -/
def State.PeersSound (s : State) : Prop := ∀ p ∈ s.pmon.peers, p.sound

/-- The retained record of a slot that holds an axis holds its REFERENCED flag, and while that is set its present count (R87, R88,
R166); and a calibration record whose write is in progress has no write-complete marker (R165). -/
def State.StoreSound (s : State) (sl : Slot) : Prop :=
  ((s.kindAt sl).isSome = true →
    (s.rcs.retained.get sl).referenced = (s.drive sl).referenced ∧
      ((s.drive sl).referenced = true → (s.rcs.retained.get sl).count = (s.drive sl).count)) ∧
    ((s.rcs.writing.get sl).isSome = true → (s.rcs.calibration.get sl).marker = false)

/-- The store is sound in every slot. -/
def State.StoresSound (s : State) : Prop := ∀ sl : Slot, s.StoreSound sl

/-! ### What the reports of a step leave alone -/

/-- A view state after claims of the step have been decided or withdrawn: OPEN and PENDING may have become one another (R48,
R51), any other is as it was. -/
def ViewState.settlesAs (x y : ViewState) : Prop :=
  match x with
  | .opened | .pending => y = .opened ∨ y = .pending
  | .own | .ownWait | .peer | .queued | .barred | .conflict | .heldA | .heldB => y = x

/-- A view after claims of the step have been decided or withdrawn: the same pair with its state settled, its waiter kept in
OWN+WAIT, and its wait timer left running or stopped by a withdrawal. -/
def View.settlesAs (v w : View) : Prop :=
  v.state.settlesAs w.state ∧ (v.state = .ownWait → w.waiter = v.waiter) ∧ (w.waiter = v.waiter ∨ w.waiter = none) ∧
    (w.waitTimer = v.waitTimer ∨ w.waitTimer = none)

/-- What no report of a step changes, whatever it is: the role, the waiting commands, the gateway record and clash window,
the receive queue, the attempt, the error count and bus-off of the interface, the marker and role of the retained domain, the
debounced inputs and the jog states, and the count of every axis. -/
structure SameAround (s t : State) : Prop where
  role : t.role = s.role
  pending : t.pending = s.pending
  gateway : t.pmon.gateway = s.pmon.gateway
  clashWindow : t.pmon.clashWindow = s.pmon.clashWindow
  clashFlag : t.pmon.clashFlag = s.pmon.clashFlag
  rx : t.bus.rx = s.bus.rx
  attempt : t.bus.attempt = s.bus.attempt
  errors : t.bus.errors = s.bus.errors
  busOff : t.bus.busOff = s.bus.busOff
  marker : t.rcs.marker = s.rcs.marker
  recorded : t.rcs.role = s.rcs.role
  up : t.liu.up = s.liu.up
  down : t.liu.down = s.liu.down
  one : t.liu.one = s.liu.one
  occupancy : t.liu.occupancy = s.liu.occupancy
  jogs : t.mvc.jogs = s.mvc.jogs
  counts : ∀ sl : Slot, (t.drive sl).count = (s.drive sl).count

/-- What a step without a passage event for a peer pair leaves alone, beyond `SameAround`: the station state and the SYNC timer,
and the state of every peer pair's view, but for claims decided or withdrawn. -/
structure SamePassages (s t : State) : Prop extends SameAround s t where
  station : t.station = s.station
  syncTimer : t.syncTimer = s.syncTimer
  peers : t.pmon.peers = s.pmon.peers
  views : ∀ (p : Nat) (v : View), s.view? p = some v → v.peerRole.isSome = true →
    ∃ w, t.view? p = some w ∧ w.slot = v.slot ∧ w.band = v.band ∧ w.other = v.other ∧ v.settlesAs w

/-! ### What the statements compare against -/

/-- The station takes a frame: in SYNC or RUN, with a frame of the kind and the echo mark at the head of its receive queue, and
`rest` behind it. A frame that is no echo is no role clash (R77, R149). -/
structure TakesFrame (s : State) (kind : Nat) (echo : Bool) (f : Frame) (rest : List RxFrame) : Prop where
  taking : s.station = .sync ∨ s.station = .run
  head : s.bus.rx = ⟨f, echo⟩ :: rest
  kind : f.kind = kind
  clash : echo = false → ∀ r, s.role = some r → f.sender ≠ roleCode r

/-- The station as it was, with `rest` left in its receive queue. -/
def State.leaving (s : State) (rest : List RxFrame) : State := { s with bus := { s.bus with rx := rest } }

/-- The station as it was, with the view of a pair in a state: the waiter as given, and the wait timer running with 8 s in
QUEUED and stopped in every other state (R36, R52). -/
def State.viewAs (s : State) (p : Nat) (st : ViewState) (waiter : Option Standing) : State :=
  s.updView p (fun w =>
    { w with state := st, waiter := waiter, waitTimer := if st = .queued then some Config.waitTime else none })

/-- A passage frame as a role sends it, of a kind, for a pair, with a standing or reason code (R146, R159). -/
def passageFrame (kind : Nat) (r : Role) (p code : Nat) : Frame := ⟨BitVec.ofNat 11 (128 * kind + 16 * roleCode r), twoBytes p code⟩

/-- A passage frame of a pair handed to the transmit side (R152): to a free general slot where no passage frame waits for one, and
otherwise to those that wait with the CLU, in the order in which they fell due: in the place that the pair's record has held since a
frame of the kind fell due in it (R38), or behind all that is due where the frame falls due as it is handed. -/
def State.Hands (s t : State) (p : Nat) (k : PassageKind) (f : Frame) : Prop :=
  if s.clu.waiting = [] ∧ s.bus.general.length < 5 then
    t.bus.general = s.bus.general ++ [f] ∧ t.clu.due = s.clu.due.filter (fun x => x ≠ ⟨p, k, none⟩)
  else
    t.bus.general = s.bus.general ∧
      (⟨p, k, none⟩ ∈ s.clu.due →
        t.clu.due = s.clu.due.map (fun x => if x = ⟨p, k, none⟩ then ⟨p, k, some f⟩ else x)) ∧
      (⟨p, k, none⟩ ∉ s.clu.due → t.clu.due = s.clu.due ++ [⟨p, k, some f⟩])

/-- A passage frame of a pair handed over: it is the pair's frame in flight, no view changes its state, and nothing of the peers, the
axes or the jobs changes (R38, R152). -/
def State.Sends (s t : State) (p : Nat) (k : PassageKind) (f : Frame) : Prop :=
  s.Hands t p k f ∧ t.clu.views = s.clu.views.map (fun v => if v.pair = p then { v with inFlight := some k } else v) ∧
    t.clu.envelopes = s.clu.envelopes ∧ t.pmon = s.pmon ∧ t.adu = s.adu ∧ t.mvc = s.mvc ∧ t.rcs = s.rcs

/-- The station is at rest in park and known to be, as the gates of scenes, learns and yields ask (R84, R117). -/
abbrev State.Parked (s : State) : Prop :=
  s.pmon.gateway.speed = .still ∧ s.pmon.gateway.park = true ∧ s.pmon.gateway.known = true

/-- A slot's axis drives the run of its job, no relief run, and nothing of the job is ending, waiting or still to be
handed (R109); the SMON has the axis in its drive set (R133). -/
structure State.DrivesJob (s : State) (sl : Slot) : Prop where
  active : (s.job sl).active = true
  cause : (s.job sl).cause = none
  handed : (s.job sl).handed = true
  taken : (s.drive sl).handed = none
  none_waits : (s.drive sl).waitingRun = none
  writing : s.rcs.writing.get sl = none
  queued : s.queuedAt sl = none
  driving : (s.drive sl).axis = .driving
  listed : s.smon.driveSet.get sl = true
  main : ∀ r, (s.drive sl).run = some r → r.origin ≠ .relief

/-- Every job of the station drives, and no axis holds, so that a cause ends each job at the end of a brake period (R113). -/
def State.AllDrive (s : State) : Prop :=
  ∀ sl : Slot, ((s.job sl).active = true → s.DrivesJob sl) ∧ (s.drive sl).axis ≠ .holding

/-- A slot's job has been given a cause while its axis drove (R92, R113): the drive is off, the axis in its brake period, and the run
ends with the cause at its end. -/
structure State.EndsWith (t : State) (sl : Slot) (o : JobOutcome) : Prop where
  active : (t.job sl).active = true
  cause : (t.job sl).cause = some o
  braking : (t.drive sl).axis = .braking
  duty : (t.drive sl).duty = 0
  brake : (t.drive sl).brake = true
  timer : (t.drive sl).brakeTimer = some 50
  after : (t.drive sl).afterBrake = .ended o

/-- A drive record turned off with a brake period begun: duty 0, brake on, SEEK with LOCK clear, the job, stall and blanking
timers stopped, 50 ms on the brake timer, and what follows it (R91). -/
def Drive.braked (d : Drive) (after : AfterBrake) : Drive :=
  { d with
    axis := .braking, duty := 0, brake := true, loop := .seek, lock := false, close := 0, vset := 0, jobTimer := none,
    stallTimer := none, blankingTimer := none, stallHeld := false, stop := none, brakeTimer := some 50, afterBrake := after }

/-- A drive record at rest: duty 0, brake on, SEEK with LOCK clear, every timer stopped and no run (R86, R91). -/
def Drive.atRest (d : Drive) (st : AxisState) : Drive :=
  { d with
    axis := st, duty := 0, brake := true, loop := .seek, lock := false, close := 0, vset := 0, jobTimer := none,
    stallTimer := none, blankingTimer := none, stallHeld := false, stop := none, brakeTimer := none, afterBrake := .idle,
    run := none }

/-- A drive record that has just entered DRIVING with a run: duty 300, brake released, SEEK with LOCK clear, the setpoint at
creep, 200 ms of blanking, 120 ms on the stall timer, and the job timer at the limit of R34 for the distance (R89). -/
def Drive.entered (d : Drive) (r : Run) (k : Kind) (distance : Int) (stop : Option Int) : Drive :=
  { d with
    axis := .driving, dir := r.dir, duty := 300, brake := false, loop := .seek, lock := false, close := 0,
    vset := (params k).creep, blankingTimer := some 200, stallTimer := some 120,
    jobTimer := some (2000 + distance * 1000 / (params k).creep).toNat, brakeTimer := none, afterBrake := .idle,
    stallHeld := false, run := some r, stop := stop }

/-- No view has anything for a control interval, or for the end of a job, to do: none is in CONFLICT, none is held by this
station, none is claimed by an own axis, and there are at most the ten of R12. -/
def State.ViewsQuiet (s : State) : Prop :=
  s.clu.views.length ≤ 10 ∧
    ∀ v ∈ s.clu.views,
      v.claimA = none ∧ v.claimB = none ∧ v.state ≠ .conflict ∧ v.state ≠ .own ∧ v.state ≠ .ownWait ∧ v.state ≠ .heldA
        ∧ v.state ≠ .heldB

/-- A peer record that has heard nothing since: only the misses-me fields and the forced flag may differ (R64). -/
def PeerRec.heardAs (p q : PeerRec) : Prop :=
  q.role = p.role ∧ q.state = p.state ∧ q.origin = p.origin ∧ q.lastSeq = p.lastSeq ∧ q.window = p.window ∧
    q.expectancy = p.expectancy ∧ q.mode = p.mode ∧ q.missSet = p.missSet ∧ q.holdSet = p.holdSet ∧ q.intervals = p.intervals

/-- Whether a list of reports asks the job on a slot to end with an outcome, by itself or with the jobs of other slots (R113). -/
def asksEnd (rs : List Report) (sl : Slot) (o : JobOutcome) : Prop :=
  Report.endRequest sl o ∈ rs ∨ ∃ sls, Report.endRequests sls o ∈ rs ∧ sl ∈ sls

/-- The frames another station's or the gateway's sending makes the station take, with the kind each is of (R149). -/
def takenKinds (v : Nat) : List (Instr × Nat) :=
  [ (.peerStake v, kStake), (.peerClaim v, kClaim), (.peerCede v, kCede), (.peerDecline v, kDecline),
    (.statusTaken v, kStatus), (.vehicleTaken v, kVehicle), (.sceneTaken v, kScene), (.stopTaken v, kStop),
    (.learnTaken v, kLearn), (.resultTaken, kResult) ]

end Sys2Proof.Machine
end

