-- ==== Sys2Proof/Certificates/Slice0/Obligations.lean ====
section
/-! DEFINITION. The statements of this model for the provers, by chapter of the manual. A statement about a step that reports pass
through says what the step itself does and, by `SameAround` or `SamePassages` (Safety.lean), what no report of the step changes;
a statement about a step that calls up no report gives the whole next state. -/

open Sys2Proof Sys2Proof.Machine

/-! ### The step -/

/-- The command at the front of the queue runs over the queue's rest (95_what_each_step_holds: a command is one whole step). -/
def Obligations.StepRunsFrontCommand : Prop :=
  ∀ (c : Instr) (q : List Instr) (s : State), s.pending = c :: q → step s = exec c { s with pending := q }

/-- With no command waiting the part idles (the model's choice: notes/assumptions/1.md and 2.md). -/
def Obligations.EmptyQueueIdles : Prop := ∀ s : State, s.pending = [] → step s = .next s

/-- Every command, on every state, has a next state. No command touches the waiting commands, none but a release or an assertion
of reset changes the role (R1, R2), and none leaves an activity event untaken (R140). -/
def Obligations.EveryCommandCompletes : Prop :=
  ∀ (c : Instr) (s : State),
    ∃ t, exec c s = .next t ∧ t.pending = s.pending ∧
      ((∀ a v b o, c ≠ .resetRelease a v b o) → c ≠ .resetAssertion → t.role = s.role) ∧
      (s.amon.activityDue = false → t.amon.activityDue = false)

/-! ### Reset and start-up (chapter 10) -/

/-- Assertion of reset (R161): every output at duty 0 with the brake on, every block's state lost but the two stores; a
calibration write in progress is broken off, and its record stands as it is, without its marker (R165). What each lost state reads
while reset is held is the model's choice (notes/assumptions/3.md). -/
def Obligations.ResetAssertionKeepsStores : Prop :=
  ∀ s : State,
    ∃ t, exec .resetAssertion s = .next t ∧ t = State.underReset t.rcs s.pending ∧ t.station = .held ∧ t.role = none ∧
      (∀ sl : Slot, (t.drive sl).duty = 0 ∧ (t.drive sl).brake = true ∧ (t.drive sl).axis = .noAxis) ∧
      t.clu.views = [] ∧ t.pmon.peers = [] ∧ t.smon.level = .unknown ∧
      t.bus = { rx := [], status := none, statusBeside := none, general := [], attempt := none, errors := 0, busOff := none } ∧
      t.rcs = { s.rcs with writing := .all none, writeTimer := .all none }

/-- Release of reset with a valid strap code (R1, R163 to R167): the role is latched and the station stands in START, with the
axes of the role IDLE and loaded, its views BARRED, its peers ABSENT, its supply level from the first sample, its quiet timer
running, its switches released; and the retained domain is marked and written. -/
def Obligations.ResetReleaseStarts : Prop :=
  ∀ (s : State) (p : StrapPins) (n : Nat) (sw : SwitchPins) (oc : OccupancyPins) (r : Role),
    s.station = .held → roleOf (4 * p.role2.toNat + 2 * p.role1.toNat + p.role0.toNat) = some r →
    ∃ t, exec (.resetRelease p n sw oc) s = .next t ∧
      t.station = .start ∧ t.role = some r ∧ t.syncTimer = none ∧ t.pending = s.pending ∧
      t.clu.views = clearanceList r ∧ t.clu.waiting = [] ∧ t.clu.due = [] ∧ (∀ sl : Slot, t.clu.envelopes.get sl = t.envelopeFor sl) ∧
      t.pmon.peers = (allRoles.filter (fun x => x != r)).map newPeer ∧ t.pmon.gateway = Gateway.initial ∧
      t.pmon.clashWindow = none ∧ t.pmon.clashFlag = false ∧ t.pmon.seq = 0 ∧ t.pmon.statusTimer = none ∧
      (∀ sl : Slot, kindOf r sl = none → t.drive sl = Drive.blank ∧ t.rcs.retained.get sl = s.rcs.retained.get sl) ∧
      (∀ sl : Slot, (kindOf r sl).isSome = true →
        let c := s.rcs.calibration.get sl
        let span := if c.marker = true ∧ c.role = some r ∧ 200 ≤ c.span ∧ c.span ≤ 8000 then c.span else 0
        let warm := s.rcs.marker = true ∧ s.rcs.role = some r
        (t.drive sl).span = span ∧ (t.drive sl).disabled = decide (span = 0) ∧
          (t.drive sl).count = (if warm then (s.rcs.retained.get sl).count else 0) ∧
          (t.drive sl).referenced = decide (warm ∧ (s.rcs.retained.get sl).referenced = true ∧ span ≠ 0) ∧
          t.drive sl =
            { Drive.blank with
              axis := .idle, span := (t.drive sl).span, disabled := (t.drive sl).disabled, count := (t.drive sl).count,
              referenced := (t.drive sl).referenced } ∧
          t.rcs.retained.get sl = ⟨(t.drive sl).count, (t.drive sl).referenced⟩) ∧
      t.rcs.marker = true ∧ t.rcs.role = some r ∧ t.rcs.calibration = s.rcs.calibration ∧
      t.mvc = (State.underReset s.rcs []).mvc ∧ t.bus = (State.underReset s.rcs []).bus ∧
      t.smon.level = (if min n 255 < 90 then .critical else if min n 255 < 105 then .low else .ok) ∧
      t.smon.recovery = 0 ∧ t.smon.driveSet = .all false ∧ t.smon.timer = some 200 ∧
      t.amon = { mode := .active, quiet := some 30000, activityDue := false } ∧
      (∀ sl : Slot, (t.liu.up.get sl).stable = false ∧ (t.liu.down.get sl).stable = false) ∧ t.liu.one.stable = false ∧
      t.liu.occupancy.stable = false ∧ t.liu.occupancyTimer = some 50

/-- Release of reset with strap code 6 or 7 (R173): STANDSTILL at once, with no role, no axis, no view and no peer record, every
output off, and the two stores untouched. -/
def Obligations.ResetReleaseInvalidStrap : Prop :=
  ∀ (s : State) (p : StrapPins) (n : Nat) (sw : SwitchPins) (oc : OccupancyPins),
    s.station = .held → p.role2 = true → p.role1 = true →
    ∃ t, exec (.resetRelease p n sw oc) s = .next t ∧ t.station = .standstill ∧ t.role = none ∧ t.clu.views = [] ∧
      t.pmon.peers = [] ∧ (∀ sl : Slot, t.kindAt sl = none ∧ (t.drive sl).duty = 0 ∧ (t.drive sl).brake = true) ∧
      t.pmon.statusTimer = none ∧ t.smon.timer = none ∧ t.rcs = s.rcs ∧ t.pending = s.pending

/-- Entry into SYNC from START as RESET_RELEASE leaves it (R168): the interface joins with both queues empty and its error count
at 0, the first STATUS is in the STATUS slot with sequence 0, ACTIVE, empty sets and each slot's axis at rest, and both timers
run. -/
def Obligations.SyncEntryBuildsFirstStatus : Prop :=
  ∀ (s : State) (r : Role),
    s.station = .start → s.role = some r → s.smon.level ≠ .unknown → s.pmon.seq = 0 → s.amon.mode = .active →
    (∀ v ∈ s.clu.views, v.state = .barred) → (∀ p ∈ s.pmon.peers, p.state = .absent) →
    (∀ sl : Slot, (s.kindAt sl).isSome = true → (s.drive sl).axis = .idle) →
    ∃ t f c, exec .syncEntry s = .next t ∧ t.station = .sync ∧ t.syncTimer = some 500 ∧
      t.bus = { rx := [], status := some f, statusBeside := none, general := [], attempt := none, errors := 0, busOff := none } ∧
      t.receiving = true ∧ (exec .transmissionAttempt t = .next { t with bus := { t.bus with attempt := some f } }) ∧
      f = encode (roleCode r) (.status c) ∧ c.seq = 0 ∧ c.mode = .active ∧ c.holdSet = 0 ∧ c.missSet = 0 ∧
      (∀ sl : Slot,
        (s.kindAt sl = none → (c.slots.get sl).axis = .noAxis) ∧
        ((s.kindAt sl).isSome = true →
          let d := s.drive sl
          (c.slots.get sl).axis = .idle ∧
            (c.slots.get sl).interval =
              (if d.hasRange = true then
                ⟨min 1000 ((d.count : Int) * 1000 / d.span), min 1000 (-((-((d.count : Int) * 1000)) / d.span))⟩
               else ⟨0, 1000⟩))) ∧
      t.pmon = { s.pmon with seq := 1, statusTimer := some 20 } ∧ t.clu.views = s.clu.views ∧ t.clu.waiting = s.clu.waiting ∧
      t.role = s.role ∧ t.adu = s.adu ∧ t.mvc = s.mvc ∧ t.smon = s.smon ∧ t.amon = s.amon ∧ t.liu = s.liu ∧ t.rcs = s.rcs ∧
      t.pending = s.pending

/-- SYNC exit at the expiry of its timer (R170, R171), with no job and no axis driven, braking or holding, as in SYNC: the station is
in RUN, every peer pair's view is derived from the peer's record and the own axis (R60), and every self pair's from its two axes
(R63). Where the own axis stands inside an OPEN pair's band a STAKE is its frame in flight, or is due, behind another frame, in
bus-off or while UNHEARD (R38, R75). -/
def Obligations.SyncTimerDerivesViews : Prop :=
  ∀ (s : State) (own : Role), s.station = .sync → s.syncTimer.isSome = true → s.role = some own →
    (s.clu.views.map (·.pair)).Nodup →
    (∀ sl : Slot, (s.job sl).active = false ∧ (s.drive sl).axis ≠ .driving ∧ (s.drive sl).axis ≠ .braking ∧
      (s.drive sl).axis ≠ .holding) →
    ∃ t, exec .syncTimerExpiry s = .next t ∧ t.station = .run ∧ t.syncTimer = none ∧ SameAround s t ∧
      t.pmon.peers = s.pmon.peers ∧
      (∀ (p : Nat) (v : View) (r : Role) (k : Kind) (b : Band), s.view? p = some v → v.other = .peer r k b →
        ∃ w, t.view? p = some w ∧ w.slot = v.slot ∧ w.band = v.band ∧ w.other = v.other ∧
          w.state =
            (if s.isPresent r = false then .barred
             else if s.peerHolds v = true then (if s.peerInside v = true ∧ s.ownInside v = true then .conflict else .peer)
             else .opened) ∧
          if s.isPresent r = true ∧ s.peerHolds v = false ∧ s.ownInside v = true then
            (if v.inFlight = none ∧ s.bus.busOff = none ∧ s.unheard = false then
               w.inFlight = some .stake ∧ passageFrame kStake own p 0 ∈ t.bus.general ++ t.clu.waiting
             else w.stakeDue = true)
          else w.inFlight = v.inFlight ∧ w.stakeDue = v.stakeDue) ∧
      ∀ (p : Nat) (v : View) (sb : Slot) (b : Band), s.view? p = some v → v.other = .self sb b →
        ∃ w, t.view? p = some w ∧ w.slot = v.slot ∧ w.band = v.band ∧ w.other = v.other ∧
          w.state =
            (match s.inside v v.slot, s.inside v sb with
             | true, true => .conflict
             | true, false => .heldA
             | false, true => .heldB
             | false, false => .opened)

/-- Loss of the always-on supply (R162): the validity marker is lost, and nothing else of the station changes. That the retained records
and the recorded role stand as they were without their supply is the model's choice (notes/assumptions/50.md). -/
def Obligations.SupplyLossClearsMarker : Prop :=
  ∀ s : State, exec .alwaysOnSupplyLoss s = .next { s with rcs := { s.rcs with marker := false } }

/-! ### Passage frames (section 3.2) -/

/-- The own CLAIM's echo and a peer's CLAIM on the view of their pair (R39, R40), with the entry that the echo settles. A CLAIM with an
undefined standing is not applied (R37). Then the evaluation of a yield for the claim that waits (R55 to R57), and the YIELD job that
a yield starts (R57, R128), with the yielded pair on its list where the start count is inside the band, and what it is to cross a band
(R30, read as in notes/assumptions/23.md). That a job which waits to start counts as a job, and the direction of a yield already at its
target, are the model's choice (notes/assumptions/9.md and 10.md). -/
def Obligations.ClaimFramesMoveView : Prop :=
  (∀ (s : State) (n : Nat) (f : Frame) (rest : List RxFrame) (v : View),
    TakesFrame s kClaim true f rest → s.view? (f.byte 0) = some v → v.peerRole.isSome = true → (s.kindAt v.slot).isSome = true →
    ∃ t, exec (.ownClaimEcho n) s = .next t ∧
      SamePassages
        (match v.state with
         | .opened | .pending => (s.leaving rest).viewAs v.pair .own none
         | .peer => (s.leaving rest).viewAs v.pair .queued none
         | .own | .ownWait | .queued | .barred | .conflict | .heldA | .heldB => s.leaving rest) t ∧
      (v.cedeDue = false → (s.drive v.slot).axis ≠ .holding →
        (v.state = .peer → ∃ w, t.view? v.pair = some w ∧ w.state = .queued ∧ w.waitTimer = some 8000) ∧
        ((s.job v.slot).active = true → (s.job v.slot).entryOf v.pair = some .claimed →
          passedBand (s.job v.slot).dir (staticInterval (s.drive v.slot).count (s.drive v.slot).span) v.band = false →
          v.band.x1 ≤ 1000 →
          (v.state = .opened ∨ v.state = .pending → (t.job v.slot).entryOf v.pair = some .held) ∧
          (v.state = .peer → (t.job v.slot).entryOf v.pair = some .claimed)))) ∧
  (∀ (s : State) (n : Nat) (f : Frame) (rest : List RxFrame) (v : View),
    TakesFrame s kClaim false f rest → s.view? (f.byte 0) = some v → v.peerRole.map roleCode = some f.sender →
    ∃ t, exec (.peerClaim n) s = .next t ∧
      SamePassages
        (match standingOf (f.byte 1), v.state with
         | some _, .opened | some _, .pending => (s.leaving rest).viewAs v.pair .peer none
         | some st, .own => (s.leaving rest).viewAs v.pair .ownWait (some st)
         | _, _ => s.leaving rest) t ∧
      (∀ st, standingOf (f.byte 1) = some st → v.state = .own →
        ∃ w, t.view? v.pair = some w ∧ w.state = .ownWait ∧ w.waiter = some st)) ∧
  (∀ (s : State) (p : Nat) (v : View) (own : Role),
    s.view? p = some v → v.peerRole.isSome = true → v.state = .ownWait → s.station = .run → s.role = some own →
    let sl := v.slot
    let u := s.markPassed sl
    let reason : Option Reason :=
      if v.waiter = some .jog ∨ v.waiter = some .yield then some .standing
      else if s.mvc.pins.get sl = true then some .pinned
      else if s.liu.occupancy.stable = true then some .occupied
      else if ¬s.Parked then some .vehicle
      else if s.smon.level = .critical ∨ s.smon.level = .unknown then some .supply
      else if (s.drive sl).axis = .fault ∨ (s.drive sl).hasRange = false then some .fault
      else none
    let declines (r : Reason) : Prop :=
      (s.evalYield p).2 = [] ∧
        if v.inFlight = none ∧ s.bus.busOff = none then
          u.Sends (s.evalYield p).1 p .decline (passageFrame kDecline own p (reasonCode r))
        else (s.evalYield p).1 = u
    (v.yieldAsked = false → (s.job sl).active = true ∨ (s.queuedAt sl).isSome = true → s.evalYield p = (u, [])) ∧
    (v.yieldAsked = false → (s.job sl).active = false → s.queuedAt sl = none →
      (s.ownInside v = false → s.evalYield p = (s, [.release p])) ∧
      (s.ownInside v = true → ∀ r, reason = some r → declines r) ∧
      (s.ownInside v = true → reason = none →
        s.evalYield p = (s.updView p (fun w => { w with yieldAsked := true }), [.startYield p sl]))) ∧
    (v.yieldAsked = true →
      ((s.job sl).active = true → (s.job sl).origin = .yield p → s.evalYield p = (u, [])) ∧
      ((s.job sl).active = false →
        (s.ownInside v = true → declines .chain) ∧ (s.ownInside v = false → s.evalYield p = (s, [.release p]))))) ∧
  (∀ (s : State) (p : Nat) (v : View) (sl : Slot) (k : Kind) (b : Band) (x : Int),
    s.view? p = some v → v.bandFor sl = some b → s.kindAt sl = some k →
    yieldTarget k b (s.drive sl).count (s.drive sl).span = some x →
    let dir : Dir := if ((s.drive sl).count : Int) < x then .up else .down
    let c := s.crossingList sl dir x
    ((staticInterval (s.drive sl).count (s.drive sl).span).meets b = true → (s.pairsOf sl).length ≤ 4 → ⟨p, .needed⟩ ∈ c.1) ∧
    ((s.job sl).active = true ∨ (s.queuedAt sl).isSome = true → s.startYield p sl = (s, [.evalYield p])) ∧
    ((s.job sl).active = false → s.queuedAt sl = none →
      s.startYield p sl =
        ((s.setPin sl false).setJob sl
            { Job.free with
              active := true, origin := .yield p, requested := some x, target := some c.2, dir := dir, speed := .code 1,
              standing := .yield, entries := c.1 },
          c.1.map (fun e => Report.decide sl e.pair) ++ [.handRun sl]))) ∧
  (∀ (c t S : Int) (b : Band), crosses c t S b = true ↔
    (-((-(min c t * 1000)) / S) ≤ (b.x2 : Int) ∧ (b.x1 : Int) ≤ max c t * 1000 / S) ∨
      ∃ x, (x = c ∨ x = t) ∧ x * 1000 / S ≤ (b.x2 : Int) ∧ (b.x1 : Int) ≤ -((-(x * 1000)) / S))

/-- The own CEDE's echo and a peer's CEDE on the view of their pair (R41, R42): release, handover, withdrawal; and the test of
release on exit, by which the own axis's CEDE comes about (R53), made once the bands its interval has left are passed (R31): that a
NEEDED or CLAIMED entry is passed too, and not only a HELD one (R112), is the model's choice (notes/assumptions/24.md). Then what it is
for a job to need a pair (R31, R130): an entry on its list that is not passed, a FAILED one among them, but for a HELD one behind a
FAILED one (R50; notes/assumptions/41.md), or a target inside the band. -/
def Obligations.CedeFramesMoveView : Prop :=
  (∀ (s : State) (n : Nat) (f : Frame) (rest : List RxFrame) (v : View),
    TakesFrame s kCede true f rest → s.view? (f.byte 0) = some v → v.peerRole.isSome = true →
    ∃ t, exec (.ownCedeEcho n) s = .next t ∧
      SamePassages
        (match v.state with
         | .own => (s.leaving rest).viewAs v.pair .opened none
         | .ownWait | .queued => (s.leaving rest).viewAs v.pair .peer none
         | .opened | .pending | .peer | .barred | .conflict | .heldA | .heldB => s.leaving rest) t) ∧
  (∀ (s : State) (n : Nat) (f : Frame) (rest : List RxFrame) (v : View),
    TakesFrame s kCede false f rest → s.view? (f.byte 0) = some v → v.peerRole.map roleCode = some f.sender →
    ∃ t, exec (.peerCede n) s = .next t ∧
      SamePassages
        (match v.state with
         | .ownWait | .queued => (s.leaving rest).viewAs v.pair .own none
         | .peer => (s.leaving rest).viewAs v.pair .opened none
         | .opened | .pending | .own | .barred | .conflict | .heldA | .heldB => s.leaving rest) t) ∧
  (∀ (s : State) (p : Nat) (v : View) (own : Role), s.view? p = some v → v.peerRole.isSome = true → s.role = some own →
    let u := s.markPassed v.slot
    let i := s.occupiedAt v.slot
    let free :=
      (i.high < (v.band.x1 : Int) ∨ (v.band.x2 : Int) < i.low) ∧ (u.job v.slot).needs (s.drive v.slot) p v.band = false ∧
        v.inFlight = none
    ((v.state = .own ∨ v.state = .ownWait) → free → s.station = .run → s.bus.busOff = none →
      (s.release p).2 = [] ∧ u.Sends (s.release p).1 p .cede (passageFrame kCede own p 0)) ∧
    ((v.state ≠ .own ∧ v.state ≠ .ownWait) ∨ ¬free ∨ s.bus.busOff.isSome = true → s.release p = (u, [])) ∧
    (∀ j, u.job v.slot = j → (s.job v.slot).active = true → (s.job v.slot).origin ≠ .learn →
      j.entries = (s.job v.slot).entries.map (fun e =>
        match e.status, (s.view? e.pair).bind (fun w => w.bandFor v.slot) with
        | .held, some b | .needed, some b | .claimed, some b =>
          if (s.job v.slot).dir = .up ∧ (b.x2 : Int) < i.low ∨ (s.job v.slot).dir = .down ∧ i.high < (b.x1 : Int) then
            { e with status := .passed }
          else e
        | _, _ => e))) ∧
  (∀ (j : Job) (d : Drive) (p : Nat) (b : Band),
    (j.active = false → j.needs d p b = false) ∧
    (j.active = true → j.origin = .learn → (j.needs d p b = true ↔ ∃ e ∈ j.entries, e.pair = p)) ∧
    (j.active = true → j.origin ≠ .learn →
      (j.needs d p b = true ↔
        (∃ a st c, j.entries = a ++ ⟨p, st⟩ :: c ∧ st ≠ .passed ∧ (st = .held → ∀ e ∈ a, ∀ f, e.status ≠ .failed f)) ∨
        ∃ x, j.target = some x ∧ d.span ≠ 0 ∧ (staticInterval x d.span).meets b = true)))

/-- The own DECLINE's echo (R43): OWN+WAIT becomes OWN and the waiter is cleared; every other state stays. -/
def Obligations.OwnDeclineEndsWait : Prop :=
  ∀ (s : State) (n : Nat) (f : Frame) (rest : List RxFrame) (v : View),
    TakesFrame s kDecline true f rest → s.view? (f.byte 0) = some v → v.peerRole.isSome = true →
    ∃ t, exec (.ownDeclineEcho n) s = .next t ∧
      (v.state = .ownWait → SamePassages ((s.leaving rest).viewAs v.pair .own none) t ∧
        ∃ w, t.view? v.pair = some w ∧ w.state = .own ∧ w.waiter = none) ∧
      (v.state ≠ .ownWait → SamePassages (s.leaving rest) t)

/-- A peer's DECLINE (R44): QUEUED becomes PEER and the wait timer stops, and the claim of the own axis's job for the pair fails with
the reason, which is kept where it is the job's first (R50); every other state stays. A DECLINE with an undefined reason is not
applied (R37). A HOLDING jog that waits for this claim alone ends at once, with the reason unless it stands within Kc of its target
(R123, R114), where its stop point before the cut target does not lie beyond the count; that the claim fails before the new envelope is
handed is the model's reading (notes/assumptions/47.md). -/
def Obligations.PeerDeclineEndsQueue : Prop :=
  ∀ (s : State) (n : Nat) (f : Frame) (rest : List RxFrame) (v : View),
    TakesFrame s kDecline false f rest → s.view? (f.byte 0) = some v → v.peerRole.map roleCode = some f.sender →
    ∃ t, exec (.peerDecline n) s = .next t ∧
      SamePassages
        (if v.state = .queued ∧ (reasonOf (f.byte 1)).isSome = true then (s.leaving rest).viewAs v.pair .peer none
         else s.leaving rest) t ∧
      (∀ (r : Reason) (j : Job), v.state = .queued → reasonOf (f.byte 1) = some r → s.job v.slot = j → j.active = true →
        j.origin ≠ .learn → j.entryOf v.pair = some .claimed → (s.drive v.slot).axis ≠ .holding →
        (t.job v.slot).active = true ∧ (t.job v.slot).entryOf v.pair = some (.failed (.declined r)) ∧
          (t.job v.slot).firstFailure = some (j.firstFailure.getD (.declined r)) ∧ (t.job v.slot).requested = j.requested) ∧
      ∀ (r : Reason) (j : Job) (k : Kind) (run : Run) (x y lo hi : Int), v.state = .queued → reasonOf (f.byte 1) = some r →
        s.job v.slot = j → j.active = true → j.origin = .jog → j.member = .noScene → j.cause = none → j.requested = some x →
        j.entries = [⟨v.pair, .claimed⟩] → j.firstFailure = none → s.queuedAt v.slot = none →
        (s.drive v.slot).axis = .holding → (s.drive v.slot).run = some run → run.origin = .jog → run.target = some y →
        s.kindAt v.slot = some k → s.envelopeFor v.slot = .limits lo hi →
        beyond run.dir (stopPoint run.dir (cutTarget run.dir y v.band (s.drive v.slot).span) lo hi (coastAllowance k false))
          (s.drive v.slot).count = false →
        s.clu.views.length ≤ 10 → (s.clu.views.map (·.pair)).Nodup →
        (∀ w ∈ s.pairsOf v.slot, w.waiting = none ∧ (w.pair ≠ v.pair →
          w.state ≠ .own ∧ w.state ≠ .ownWait ∧ w.state ≠ .heldA ∧ w.state ≠ .heldB)) →
        t.job v.slot =
            { Job.free with
              outcome := some (if |x - (s.drive v.slot).count| ≤ (params k).coast then .done else .declined r) } ∧
          (t.drive v.slot).axis = .idle ∧ (t.drive v.slot).run = none

/-- The own STAKE's echo and a peer's STAKE on the view of their pair (R45, R46): CONFLICT is found from the two intervals, and a
held passage that a job needs is waited for. Then the CONFLICT test of a STATUS, what entry into CONFLICT does to a driving job of
the own axis (R58), and the test of a view in CONFLICT again (R59, R63), made with a PRESENT peer alone (R69). That a peer which is not
PRESENT is outside its band at the echo of a STAKE too is the model's choice (notes/assumptions/44.md). -/
def Obligations.StakeFramesMoveView : Prop :=
  (∀ (s : State) (n : Nat) (f : Frame) (rest : List RxFrame) (v : View),
    TakesFrame s kStake true f rest → s.view? (f.byte 0) = some v → v.peerRole.isSome = true →
    ∃ t, exec (.ownStakeEcho n) s = .next t ∧
      SamePassages
        (match v.state with
         | .opened | .pending => (s.leaving rest).viewAs v.pair .own none
         | .peer | .queued => (s.leaving rest).viewAs v.pair (if s.peerInside v = true then .conflict else .own) none
         | .own | .ownWait | .barred | .conflict | .heldA | .heldB => s.leaving rest) t) ∧
  (∀ (s : State) (n : Nat) (f : Frame) (rest : List RxFrame) (v : View),
    TakesFrame s kStake false f rest → s.view? (f.byte 0) = some v → v.peerRole.map roleCode = some f.sender →
    ∃ t, exec (.peerStake n) s = .next t ∧
      SamePassages
        (match v.state with
         | .opened | .pending => (s.leaving rest).viewAs v.pair .peer none
         | .own | .ownWait =>
           (s.leaving rest).viewAs v.pair
             (if s.ownInside v = true then .conflict else if s.needed v v.slot = true then .queued else .peer) none
         | .peer | .queued | .barred | .conflict | .heldA | .heldB => s.leaving rest) t) ∧
  (∀ (s : State) (p : Nat) (v : View), s.view? p = some v → v.peerRole.isSome = true →
    s.conflictTest p =
      if (v.state = .opened ∨ v.state = .pending ∨ v.state = .own ∨ v.state = .ownWait) ∧ s.peerInside v = true ∧
          s.ownInside v = true then s.enterConflict p
      else (s, [])) ∧
  (∀ (s : State) (p : Nat) (v : View) (st : EntryStatus),
    s.view? p = some v → v.peerRole.isSome = true → v.state ≠ .conflict → s.ownInside v = true → s.DrivesJob v.slot →
    (s.drive v.slot).dir = (s.job v.slot).dir → (s.job v.slot).origin ≠ .learn →
    (s.job v.slot).entries = [⟨p, st⟩] → st = .needed ∨ st = .claimed ∨ st = .held →
    let t := settle (s.enterConflict p)
    (∃ w, t.view? p = some w ∧ w.state = .conflict ∧ w.waitTimer = none ∧ w.waiter = none) ∧ t.EndsWith v.slot .conflict ∧
      (t.job v.slot).entries = [⟨p, .failed .conflict⟩]) ∧
  (∀ (s : State) (p : Nat) (v : View), s.view? p = some v →
    (v.state ≠ .conflict → s.retest p = (s, [])) ∧
    (v.state = .conflict →
      (∀ r k b, v.other = .peer r k b →
        (s.isPresent r = false → s.retest p = (s, [])) ∧
        (s.isPresent r = true → ∃ w, (s.retest p).1.view? p = some w ∧ (s.retest p).1.bus = s.bus ∧
          w.state =
            (match s.ownInside v, s.peerInside v with
             | true, true => .conflict
             | true, false => .own
             | false, true => .peer
             | false, false => .opened))) ∧
      (∀ sb b, v.other = .self sb b → ∃ w, (s.retest p).1.view? p = some w ∧
        w.state =
          (match s.inside v v.slot, s.inside v sb with
           | true, true => .conflict
           | true, false => .heldA
           | false, true => .heldB
           | false, false => .opened))))

/-- A passage frame that names a pair off the clearance list or a self pair, or that a role other than the pair's peer has sent,
is taken and not applied: every view, job and drive stays as it was (R37). -/
def Obligations.PassageNotApplied : Prop :=
  (∀ (s : State) (n k : Nat) (c : Instr) (f : Frame) (rest : List RxFrame),
    (c, k) ∈ [(Instr.ownClaimEcho n, kClaim), (.ownCedeEcho n, kCede), (.ownDeclineEcho n, kDecline), (.ownStakeEcho n, kStake)] →
    TakesFrame s k true f rest → (∀ v, s.view? (f.byte 0) = some v → v.peerRole = none) →
    ∃ t, exec c s = .next t ∧ SamePassages (s.leaving rest) t ∧ t.clu = s.clu ∧ t.mvc = s.mvc ∧ t.adu = s.adu) ∧
  (∀ (s : State) (n k : Nat) (c : Instr) (f : Frame) (rest : List RxFrame),
    (c, k) ∈ [(Instr.peerClaim n, kClaim), (.peerCede n, kCede), (.peerDecline n, kDecline), (.peerStake n, kStake)] →
    TakesFrame s k false f rest → (∀ v, s.view? (f.byte 0) = some v → v.peerRole.map roleCode ≠ some f.sender) →
    ∃ t, exec c s = .next t ∧ SamePassages (s.leaving rest) t ∧ t.clu = s.clu ∧ t.mvc = s.mvc ∧ t.adu = s.adu)

/-- A NEEDED entry of an active job on an OPEN pair, in RUN and not UNHEARD, with no frame of the pair in flight (R48): the entry
is CLAIMED, the view PENDING, and the job's CLAIM, with its standing, is the pair's frame in flight. Then the other rows of R48: on a
PEER pair the entry is CLAIMED by a CLAIM that leaves the view PEER, on an OWN or OWN+WAIT pair it is HELD, on a BARRED pair it fails
with PEER_LOST, and behind a frame in flight it stays NEEDED. On a QUEUED pair, for which R48 has no row, it is CLAIMED with no frame:
the model's choice, notes/assumptions/12.md. -/
def Obligations.OpenPairIsClaimed : Prop :=
  (∀ (s : State) (sl : Slot) (p : Nat) (v : View) (r : Role),
    s.role = some r → (s.job sl).active = true → (s.job sl).entryOf p = some .needed → s.view? p = some v →
    v.peerRole.isSome = true → v.state = .opened → v.inFlight = none → v.cedeDue = false → s.unheard = false →
    s.station = .run → s.bus.busOff = none →
    let t := (s.decideEntry sl p).1
    let f : Frame := ⟨BitVec.ofNat 11 (384 + 16 * roleCode r), twoBytes p (standingCode (s.job sl).standing)⟩
    (t.job sl).entryOf p = some .claimed ∧
      (∃ w, t.view? p = some w ∧ w.state = .pending ∧ w.inFlight = some .claim ∧ w.slot = v.slot ∧ w.other = v.other) ∧
      s.Hands t p .claim f ∧
      (∀ q, q ≠ p → t.view? q = s.view? q) ∧ t.adu = s.adu ∧ t.pmon = s.pmon ∧ t.bus.rx = s.bus.rx) ∧
  (∀ (s : State) (sl : Slot) (p : Nat) (v : View) (r : Role),
    s.role = some r → (s.job sl).active = true → (s.job sl).entryOf p = some .needed → s.view? p = some v →
    v.peerRole.isSome = true →
    let e := s.decideEntry sl p
    let entered (st : EntryStatus) (t : State) : Prop :=
      t = s.setJob sl (t.job sl) ∧ t.job sl = { s.job sl with entries := (t.job sl).entries } ∧
        (t.job sl).entryOf p = some st ∧ ∀ q, q ≠ p → (t.job sl).entryOf q = (s.job sl).entryOf q
    (v.inFlight.isSome = true → e = (s, [])) ∧
    (v.inFlight = none → v.cedeDue = false →
      (v.state = .own ∨ v.state = .ownWait → entered .held e.1 ∧ e.2 = [.learnCheck sl]) ∧
      (v.state = .queued → entered .claimed e.1 ∧ e.2 = []) ∧
      (v.state = .barred → e = (s, [.failEntry sl p .peerLost])) ∧
      (v.state = .peer → s.unheard = false → s.station = .run → s.bus.busOff = none →
        ∃ u, entered .claimed u ∧ e.2 = [] ∧
          u.Sends e.1 p .claim (passageFrame kClaim r p (standingCode (s.job sl).standing)))))

/-- A claim entry that fails (R50): it and every later entry still NEEDED or CLAIMED are FAILED with the reason, the earlier ones
stay, the first reason is kept, and the job's target is cut back to the near edge of the band. -/
def Obligations.FailedClaimCutsTarget : Prop :=
  ∀ (s : State) (sl : Slot) (p : Nat) (f : Failure) (v : View) (b : Band) (a c : List Entry) (st : EntryStatus) (x : Int),
    (s.job sl).active = true → (s.job sl).origin ≠ .learn → (s.job sl).entries = a ++ ⟨p, st⟩ :: c →
    (∀ e ∈ a, e.pair ≠ p) → st = .needed ∨ st = .claimed → s.view? p = some v → v.bandFor sl = some b →
    (s.job sl).target = some x →
    let t := (s.failEntry sl p f).1
    (t.job sl).entries =
        a ++ ⟨p, .failed f⟩ ::
          c.map (fun e => if e.status = .needed ∨ e.status = .claimed then { e with status := .failed f } else e) ∧
      (t.job sl).firstFailure = some ((s.job sl).firstFailure.getD f) ∧
      (t.job sl).target =
        some (match (s.job sl).dir with
              | .up => min x ((((b.x1 : Int) - 1) * (s.drive sl).span) / 1000)
              | .down => max x (-((-(((b.x2 : Int) + 1) * (s.drive sl).span)) / 1000))) ∧
      (t.job sl).requested = (s.job sl).requested ∧ t.clu = s.clu ∧ t.bus = s.bus ∧ t.pmon = s.pmon ∧
      (∀ y, y ≠ sl → t.job y = s.job y ∧ t.drive y = s.drive y)

/-- The local arbiter on an OPEN self pair (R62): one axis that claims it comes to hold it; where both claim, the lower slot
holds and the higher waits with its wait timer running. -/
def Obligations.ArbiterServesLowerSlot : Prop :=
  ∀ (s : State) (p : Nat) (v : View) (sb : Slot) (bb : Band),
    s.view? p = some v → v.other = .self sb bb → v.state = .opened → v.slot ≠ sb →
    (v.claimA.isSome = true → v.claimB = none →
      ∃ w, (s.arbitrate p).1.view? p = some w ∧ w.state = .heldA ∧ w.waiting = none ∧ w.claimA = none ∧ w.claimB = none) ∧
    (v.claimA = none → v.claimB.isSome = true →
      ∃ w, (s.arbitrate p).1.view? p = some w ∧ w.state = .heldB ∧ w.waiting = none ∧ w.claimA = none ∧ w.claimB = none) ∧
    (v.claimA.isSome = true → v.claimB.isSome = true →
      ∃ w, (s.arbitrate p).1.view? p = some w ∧ w.claimA = none ∧ w.claimB = none ∧ w.waitTimer = some 8000 ∧
        if slotIndex v.slot < slotIndex sb then w.state = .heldA ∧ w.waiting = some .b ∧ w.waiter = v.claimB
        else w.state = .heldB ∧ w.waiting = some .a ∧ w.waiter = v.claimA)

/-- Expiry of a peer pair's wait timer (R52): the timer stops and no view leaves its state; where the waiting claim is the one
entry of the job of the own axis, it fails with WAIT, and its withdrawal CEDE (R51) is the pair's frame in flight. That the job is still
there after the failure, on a HOLDING axis too, which ends its run at its next test under R93, is the model's reading
(notes/assumptions/47.md). -/
def Obligations.WaitExpiryFailsClaim : Prop :=
  (∀ (s : State) (p n : Nat) (v : View),
    s.view? p = some v → v.waitTimer.isSome = true → s.station = .run →
    ∃ t, exec (.waitTimerExpiry p n) s = .next t ∧ SamePassages (s.updView p (fun w => { w with waitTimer := none })) t) ∧
  (∀ (s : State) (p n : Nat) (v : View) (j : Job) (r : Role),
    s.view? p = some v → v.waitTimer.isSome = true → s.station = .run → v.peerRole.isSome = true → v.state = .queued →
    v.inFlight = none → s.bus.busOff = none → s.role = some r → s.job v.slot = j → j.active = true → j.origin ≠ .learn →
    j.entries = [⟨p, .claimed⟩] → j.firstFailure = none → s.clu.waiting = [] → s.bus.general.length < 5 →
    s.amon.activityDue = false →
    ∃ t w, exec (.waitTimerExpiry p n) s = .next t ∧ (t.job v.slot).entries = [⟨p, .failed .wait⟩] ∧
      (t.job v.slot).firstFailure = some .wait ∧ (t.job v.slot).requested = j.requested ∧ t.view? p = some w ∧
      w.state = .queued ∧ w.waitTimer = none ∧ w.inFlight = some .cede ∧
      t.bus.general = s.bus.general ++ [⟨BitVec.ofNat 11 (512 + 16 * roleCode r), twoBytes p 0⟩])

/-! ### The peer monitor (chapter 4) -/

/-- A STATUS applied to its sender's record (R65 steps 1 and 2, R66 to R69): in PRESENT one hit is recorded, and before it one miss
where the sequence is not the last one plus one; two misses in the window end PRESENT. Then the comparison of one shared view with
the sender's hold set (R78), and the reconciliation it comes to at the second mismatch, or at the first where an overrun has forced it
(R79 to R81). That it is so too for a STATUS which itself turns the record from ACQUIRING into PRESENT is the model's choice
(notes/assumptions/48.md). -/
def Obligations.StatusUpdatesRecord : Prop :=
  (∀ (s : State) (n : Nat) (f : Frame) (rest : List RxFrame) (c : StatusContent) (r : Role) (p : PeerRec),
    TakesFrame s kStatus false f rest → payload f = .status c → roleOf f.sender = some r → s.peer? r = some p →
    ∃ t q, exec (.statusTaken n) s = .next t ∧ t.peer? r = some q ∧ SameAround (s.leaving rest) t ∧
      (t.station = s.station ∨ s.station = .sync ∧ t.station = .run) ∧
      (∀ x y, x ≠ r → s.peer? x = some y → ∃ z, t.peer? x = some z ∧ y.heardAs z) ∧
      q.lastSeq = c.seq ∧ q.mode = c.mode ∧ q.missSet = c.missSet ∧ q.holdSet = c.holdSet ∧
      (∀ sl : Slot, q.intervals.get sl = (c.slots.get sl).interval) ∧
      (let timed : Timer := some (if c.mode = .active then 30 else 150)
       let inOrder := c.seq = (p.lastSeq + 1) % 16
       (p.state = .absent → q.state = .acquiring ∧ q.origin = .absent ∧ q.expectancy = timed) ∧
       (p.state = .lost → q.state = .acquiring ∧ q.origin = .lost ∧ q.expectancy = timed) ∧
       (p.state = .acquiring → q.origin = p.origin ∧ q.expectancy = timed ∧
         (inOrder → q.state = .present ∧ q.window = [.hit, .hit, .hit, .hit, .hit]) ∧ (¬inOrder → q.state = .acquiring)) ∧
       (p.state = .present → p.window.length = 5 →
         q.window.length = 5 ∧
         (inOrder → q.window = p.window.drop 1 ++ [.hit]) ∧ (¬inOrder → q.window = p.window.drop 2 ++ [.miss, .hit]) ∧
         (2 ≤ q.window.count .miss → q.state = .lost ∧ q.expectancy = none ∧ q.missesMe = false ∧ q.missesMeCount = 0) ∧
         (q.window.count .miss < 2 → q.state = .present ∧ q.expectancy = timed)))) ∧
  (∀ (s : State) (p : Nat) (v : View) (r : Role) (q : PeerRec),
    s.view? p = some v → v.peerRole = some r → s.peer? r = some q → s.station = .run →
    let held := q.holdSet.getLsbD p
    let counted (n : Nat) : Effect := (s.updView p (fun w => { w with reconcile := n }), [])
    let differs :=
      (held = true ∧ (v.state = .opened ∨ v.state = .pending ∨ v.state = .own ∨ v.state = .ownWait)) ∨
        (held = false ∧ (v.state = .peer ∨ v.state = .queued))
    (¬differs → s.compare p = counted 0) ∧
    (differs → v.reconcile = 0 → q.forced = false → s.compare p = counted 1) ∧
    (differs → 1 ≤ v.reconcile ∨ q.forced = true →
      let t := (s.compare p).1
      (∃ w, t.view? p = some w ∧ w.reconcile = 0 ∧ t.bus = s.bus ∧
        (v.state = .opened ∨ v.state = .pending → w.state = .peer ∧ w.inFlight = v.inFlight) ∧
        (v.state = .own ∨ v.state = .ownWait →
          (s.ownInside v = true → s.peerInside v = true → w.state = .conflict ∧ w.waiter = none) ∧
          (s.ownInside v = true → s.peerInside v = false → w.state = v.state ∧ w.waiter = v.waiter) ∧
          (s.ownInside v = false → w.state = .peer ∧ w.waiter = none)) ∧
        (v.state = .peer → w.state = .opened ∧ w.inFlight = v.inFlight) ∧
        (v.state = .queued → w.state = .opened ∧ w.waitTimer = none)) ∧
      ((s.job v.slot).active = true →
        ((v.state = .own ∨ v.state = .ownWait) → s.ownInside v = false → s.needed v v.slot = true →
          (s.job v.slot).entryOf p = some .held →
          (t.job v.slot).entryOf p = some .needed ∧ Report.decide v.slot p ∈ (s.compare p).2) ∧
        (v.state = .queued → (s.job v.slot).entryOf p = some .claimed →
          (t.job v.slot).entryOf p = some .needed ∧ Report.decide v.slot p ∈ (s.compare p).2))))

/-- Expiry of a record's expectancy timer (R66) among sound records: ACQUIRING falls back to its origin, PRESENT records a miss and
is LOST at the second in its window. In RUN the loss bars every view shared with the peer but one that holds its pair, whose waiter is
forgotten (R36, R71). Then the claims that fail with PEER_LOST, by the view they stand against (R71), and the views that are derived
when the peer returns, where the envelopes stand as last built (R61). -/
def Obligations.ExpectancyExpiry : Prop :=
  (∀ (s : State) (r : Role) (n : Nat) (p : PeerRec),
    s.peer? r = some p → p.expectancy.isSome = true → s.station = .sync ∨ s.station = .run → s.PeersSound →
    ∃ t q, exec (.expectancyTimerExpiry r n) s = .next t ∧ t.peer? r = some q ∧ SameAround s t ∧ t.station = s.station ∧
      (∀ x, x ≠ r → t.peer? x = s.peer? x) ∧
      q.lastSeq = p.lastSeq ∧ q.mode = p.mode ∧ q.missSet = p.missSet ∧ q.holdSet = p.holdSet ∧ q.intervals = p.intervals ∧
      q.forced = p.forced ∧
      (p.state = .acquiring → q = { p with state := p.origin, expectancy := none }) ∧
      (p.state = .present → p.window.length = 5 →
        q.window = p.window.drop 1 ++ [.miss] ∧
        (2 ≤ q.window.count .miss → q.state = .lost ∧ q.expectancy = none ∧ q.missesMe = false ∧ q.missesMeCount = 0) ∧
        (q.window.count .miss < 2 →
          q.state = .present ∧ q.expectancy = some (if p.mode = .active then 30 else 150) ∧ q.missesMe = p.missesMe)) ∧
      (s.station = .run → p.state = .present → q.state = .lost → ∀ (x : Nat) (v : View), s.view? x = some v → v.peerRole = some r →
        ∃ w, t.view? x = some w ∧ w.slot = v.slot ∧ w.other = v.other ∧
          (v.state = .own → w.state = .own ∧ w.waiter = v.waiter) ∧ (v.state = .ownWait → w.state = .own ∧ w.waiter = none) ∧
          (v.state = .opened ∨ v.state = .pending ∨ v.state = .peer ∨ v.state = .queued ∨ v.state = .barred ∨ v.state = .conflict →
            w.state = .barred))) ∧
  (∀ (s : State) (p : Nat) (v : View) (sl : Slot) (x : Nat), s.view? p = some v → v.peerRole.isSome = true →
    (Report.failEntry sl x .peerLost ∈ (s.loseView p).2 ↔
      sl = v.slot ∧ x = v.pair ∧ (s.job v.slot).active = true ∧
        ((s.job v.slot).entryOf v.pair = some .claimed ∧ (v.state = .pending ∨ v.state = .queued ∨ v.state = .peer) ∨
          (s.job v.slot).entryOf v.pair = some .needed ∧ (v.state = .pending ∨ v.state = .queued)))) ∧
  (∀ (s : State) (r : Role), s.isPresent r = true → (s.clu.views.map (·.pair)).Nodup →
    (∀ sl : Slot, s.clu.envelopes.get sl = s.nextEnvelope sl) →
    let t := (s.peerReturned r).1
    ∀ (p : Nat) (v : View), s.view? p = some v →
      (v.peerRole ≠ some r ∨ v.state ≠ .barred → t.view? p = some v) ∧
      (v.peerRole = some r → v.state = .barred → ∃ w, t.view? p = some w ∧ w.slot = v.slot ∧ w.other = v.other ∧
        w.state =
          (if s.peerHolds v = true then (if s.peerInside v = true ∧ s.ownInside v = true then .conflict else .peer)
           else .opened) ∧
        (s.peerHolds v = false → s.ownInside v = true → w.inFlight = some .stake ∨ w.stakeDue = true)))

/-- The misses-me count that a STATUS makes on a record it leaves PRESENT (R74): two frames in a row that disagree with the flag
turn it, and the CLU is told where the station becomes UNHEARD or stops being so. Then what it does: the claims that fail with
UNHEARD, at that moment and when they are decided later (R75), and the stakes due that are served afterwards (R76): State.serveStake is
called only when the station is not UNHEARD. That a NEEDED entry is decided on a PENDING view with nothing in flight, for which R48 has no
row, and as on an OPEN one, is the model's reading (notes/assumptions/11.md). -/
def Obligations.MissesMeTurnsAtTwo : Prop :=
  (∀ (s : State) (r own : Role) (p : PeerRec),
    s.role = some own → s.peer? r = some p → p.state = .present →
    (Report.unheardEntered ∈ (s.peerTests r).2 ↔ s.unheard = false ∧ (s.peerTests r).1.unheard = true) ∧
    (Report.unheardCleared ∈ (s.peerTests r).2 ↔ s.unheard = true ∧ (s.peerTests r).1.unheard = false) ∧
    ∃ q, (s.peerTests r).1.peer? r = some q ∧ p.heardAs q ∧ q.forced = p.forced ∧
      (let listed := p.missSet.getLsbD (roleCode own)
       (listed = p.missesMe → q.missesMe = p.missesMe ∧ q.missesMeCount = 0) ∧
       (listed ≠ p.missesMe → p.missesMeCount = 0 → q.missesMe = p.missesMe ∧ q.missesMeCount = 1) ∧
       (listed ≠ p.missesMe → p.missesMeCount = 1 → q.missesMe = listed ∧ q.missesMeCount = 0))) ∧
  (∀ (s : State) (p : Nat) (v : View) (sl : Slot), (s.clu.views.map (·.pair)).Nodup → s.view? p = some v →
    s.unheardEntered.1 = s ∧
    (Report.failEntry sl p .unheard ∈ s.unheardEntered.2 ↔
      sl = v.slot ∧ v.peerRole.isSome = true ∧ (s.job sl).active = true ∧
        ((s.job sl).entryOf p = some .claimed ∨ (s.job sl).entryOf p = some .needed ∧ v.inFlight.isSome = true))) ∧
  (∀ (s : State) (p : Nat) (v : View) (sl : Slot), s.view? p = some v → v.peerRole.isSome = true → s.unheard = true →
    v.state = .opened ∨ v.state = .pending ∨ v.state = .peer → v.inFlight = none → v.cedeDue = false →
    (s.job sl).active = true → (s.job sl).entryOf p = some .needed → s.decideEntry sl p = (s, [.failEntry sl p .unheard])) ∧
  (∀ (s : State) (p : Nat) (v : View) (own : Role), s.view? p = some v → s.role = some own → s.station = .run →
    let u := s.updView p (fun w => { w with stakeDue := false })
    let cleared : State := { u with clu := { u.clu with due := s.clu.due.filter (fun x => x ≠ ⟨p, .stake, none⟩) } }
    (v.stakeDue = false → s.serveStake p = (s, [])) ∧
    (v.stakeDue = true →
      (v.state ≠ .opened ∨ s.ownInside v = false → s.serveStake p = (cleared, [])) ∧
      (v.state = .opened → s.ownInside v = true →
        (v.inFlight = none → s.bus.busOff = none →
          (s.serveStake p).2 = [] ∧ u.Sends (s.serveStake p).1 p .stake (passageFrame kStake own p 0)) ∧
        (v.inFlight.isSome = true ∨ s.bus.busOff.isSome = true → s.serveStake p = (s, [])))))

/-- A VEHICLE (R82): the gateway's loads the gateway record, with 500 ms on its hold timer; an undefined class makes it MOVING and
unknown; a station's VEHICLE is not loaded. -/
def Obligations.VehicleLoadsGateway : Prop :=
  ∀ (s : State) (n : Nat) (f : Frame) (rest : List RxFrame) (speed : Option SpeedClass) (park : Bool),
    TakesFrame s kVehicle false f rest → payload f = .vehicle speed park →
    ∃ t, exec (.vehicleTaken n) s = .next t ∧
      SamePassages
        (if f.sender = 7 then
           { s.leaving rest with
             pmon := { s.pmon with
               gateway := match speed with
                 | some x => { speed := x, park := park, known := true, hold := some 500 }
                 | none => { speed := .moving, park := false, known := false, hold := none } } }
         else s.leaving rest) t

/-- Expiry of the hold timer (R83): the gateway record is MOVING, not in park, unknown, and its timer stops; and where the vehicle was
at rest in park till then and every job drives, each but a SLIDE or BACK jog ends VEHICLE. Which jobs a change of the gateway record ends,
driving or not (R126): scenes, yields and learns outside STILL with park, and TIP and STOW jogs outside STILL. That a scene or learn
which waits to start takes the cause, and a jog that waits is dropped, is the model's choice (notes/assumptions/8.md). -/
def Obligations.HoldExpiryDegradesGateway : Prop :=
  (∀ (s : State) (n : Nat), s.pmon.gateway.hold.isSome = true → s.station = .sync ∨ s.station = .run →
    ∃ t, exec (.holdTimerExpiry n) s = .next t ∧
      SamePassages
        { s with pmon := { s.pmon with gateway := { speed := .moving, park := false, known := false, hold := none } } } t ∧
      ∀ (sl : Slot) (k : Kind), s.Parked → s.AllDrive → (s.job sl).active = true → s.kindAt sl = some k →
        (s.job sl).origin ≠ .jog ∨ k = .tip ∨ k = .stow → t.EndsWith sl .vehicle) ∧
  (∀ (s : State) (sl : Slot) (k : Kind), s.kindAt sl = some k →
    (asksEnd s.endVehicle.2 sl .vehicle ↔
      (s.job sl).active = true ∧
        if (s.job sl).origin = .jog then (k = .tip ∨ k = .stow) ∧ s.pmon.gateway.speed ≠ .still else ¬s.Parked) ∧
    (∀ q, s.queuedAt sl = some q →
      s.endVehicle.1.queuedAt sl =
        (match q.origin with
         | .jog _ => if (k = .tip ∨ k = .stow) ∧ s.pmon.gateway.speed ≠ .still then none else some q
         | .scene _ _ _ _ | .learn => if s.Parked then some q else some { q with cause := some (q.cause.getD .vehicle) })))

/-- Role clashes (R77, R172). The first frame of another sender under the latched role starts the 1 s window and sets the flag, and
is not otherwise acted on; a second inside the window brings STANDSTILL; the window's expiry clears the flag. In STANDSTILL no
view keeps a CEDE or STAKE due, the SYNC timer is stopped, and the hold timer and the clash window stand as they were:
notes/assumptions/22.md, read from R172 by inference. That the loop of each drive is in SEEK with LOCK clear, the close counter 0 and the
setpoint 0 is the model's choice (notes/assumptions/51.md); so is that STANDSTILL comes before the activity event of the second clash frame,
which in QUIET leaves the mode and the sequence as they were (notes/assumptions/54.md). -/
def Obligations.RoleClash : Prop :=
  (∀ (s : State) (n k : Nat) (c : Instr) (f : Frame) (rest : List RxFrame) (r : Role),
    (c, k) ∈ takenKinds n → s.station = .sync ∨ s.station = .run → s.role = some r → s.bus.rx = ⟨f, false⟩ :: rest →
    f.kind = k → f.sender = roleCode r → s.pmon.clashWindow = none →
    ∃ t, exec c s = .next t ∧
      SamePassages { s.leaving rest with pmon := { s.pmon with clashWindow := some 1000, clashFlag := true } } t ∧
      t.mvc = s.mvc ∧ t.adu = s.adu ∧ t.clu = s.clu ∧ t.rcs = s.rcs ∧ t.smon.level = s.smon.level ∧ t.bus.general = s.bus.general) ∧
  (∀ (s : State) (n k : Nat) (c : Instr) (f : Frame) (rest : List RxFrame) (r : Role),
    (c, k) ∈ takenKinds n → s.station = .sync ∨ s.station = .run → s.role = some r → s.bus.rx = ⟨f, false⟩ :: rest →
    f.kind = k → f.sender = roleCode r → s.pmon.clashWindow.isSome = true →
    ∃ t, exec c s = .next t ∧ t.station = .standstill ∧ t.role = s.role ∧ t.syncTimer = none ∧ t.pending = s.pending ∧
      (∀ sl : Slot,
        t.drive sl =
          { (s.drive sl).atRest
              (match (s.drive sl).axis with
               | .driving | .braking | .holding => .idle
               | x => x) with waitingRun := none, handed := none }) ∧
      t.bus =
        { rx := rest, status := none, statusBeside := none, general := [], attempt := none, errors := s.bus.errors, busOff := none } ∧
      t.clu.waiting = [] ∧ t.clu.due = [] ∧ t.clu.envelopes = s.clu.envelopes ∧
      t.clu.views = s.clu.views.map (fun v => { v with inFlight := none, cedeDue := false, stakeDue := false }) ∧
      t.mvc = { s.mvc with outgoing := [] } ∧
      t.pmon =
        { s.pmon with statusTimer := none, peers := s.pmon.peers.map (fun p => { p with expectancy := none }) } ∧
      t.smon = { s.smon with timer := none, driveSet := .all false } ∧ t.amon.mode = s.amon.mode ∧ t.amon.quiet = none ∧
      t.liu = { s.liu with occupancyTimer := none } ∧ t.rcs = s.rcs) ∧
  (∀ s : State, s.pmon.clashWindow.isSome = true → s.station = .sync ∨ s.station = .run →
    exec .clashWindowExpiry s = .next { s with pmon := { s.pmon with clashWindow := none, clashFlag := false } })

/-! ### The move controller (chapter 6) -/

/-- A SCENE in RUN, the station's own echo among them (R16), whose sender, id and scope allow it, past the gates and with no axis busy
(R115, R117, R118, R112): the scene record opens with its requester, a slot with no target has NO_JOB, and each slot with one starts a
SCENE job to the target of R32, its run handed to the ADU: at code 2 on an axis with a position, and on an UNREFERENCED one a
REFERENCE run, down at creep with no target (R119). Here no target lies across a band; an axis already at its target takes direction
down, which is the model's choice (notes/assumptions/10.md). Then supersession, the first thing a taken SCENE does (R116): the scene or
learn that was active becomes an ending entry, its active jobs are asked to end SUPERSEDED, and its jobs that had not started take
their outcome at once, which is the model's choice (notes/assumptions/8.md); where that settles the entry, its RESULT is built instead
(R120). Then the loading of one slot (R118): KEEP leaves what is on the axis, and under a target the job on it is asked to end
SUPERSEDED, be the target one that starts a job or one refused as OCCUPIED or DISABLED (R116). Last, a job that has waited for the old one
to end: it starts as its loading has decided (R118), with a REFERENCE run where the axis was UNREFERENCED then. That it does so on an axis
which a calibration write has made REFERENCED meanwhile is the model's reading (notes/assumptions/53.md). -/
def Obligations.SceneStartsMoves : Prop :=
  (∀ (s : State) (n : Nat) (f : Frame) (echo : Bool) (rest : List RxFrame) (r : Role) (id : Nat) (scope : BitVec 6),
    TakesFrame s kScene echo f rest → s.station = .run → s.role = some r → payload f = .scene id scope → id ≤ 5 →
    scope.getLsbD (roleCode r) = true → f.sender ≠ 6 →
    s.pmon.gateway.speed = .still → s.pmon.gateway.park = true → s.pmon.gateway.known = true →
    s.smon.level = .ok ∨ s.smon.level = .low → s.isOccupied = false → s.mvc.active = none →
    (∀ sl : Slot, (s.job sl).active = false ∧ s.queuedAt sl = none) →
    (∀ (sl : Slot) (k : Kind) (p : Nat), kindOf r sl = some k → sceneTarget id r k = some p →
      (s.drive sl).disabled = false ∧
      ((s.drive sl).hasRange = true → ∀ v ∈ s.pairsOf sl, ∀ b, v.bandFor sl = some b →
        crosses (s.drive sl).count (sceneCount k p (s.drive sl).span) (s.drive sl).span b = false)) →
    (∃ (sl : Slot) (k : Kind) (p : Nat), kindOf r sl = some k ∧ sceneTarget id r k = some p) →
    ∃ t, exec (.sceneTaken n) s = .next t ∧ SamePassages (s.leaving rest) t ∧ t.clu = s.clu ∧ t.mvc.ending = s.mvc.ending ∧
      t.mvc.active =
        some { id := .scene id, requester := f.sender, learnSlot := none
               slots := PerSlot.tabulate (fun sl =>
                 match (kindOf r sl).bind (sceneTarget id r) with
                 | some _ => .pending
                 | none => .ended .noJob) } ∧
      ∀ sl : Slot,
        match kindOf r sl, (kindOf r sl).bind (sceneTarget id r) with
        | some k, some p =>
          let d := s.drive sl
          let m := (params k).margin
          let x : Int := max m (min ((d.span : Int) - m) ((p : Int) * d.span / 1000))
          let run : Run :=
            if d.hasRange = true then
              { origin := .scene, dir := if (d.count : Int) < x then .up else .down, target := some x, speed := .code 2,
                secondLeg := false, pulsesLeft := none }
            else
              { origin := .reference, dir := .down, target := none, speed := .creep, secondLeg := false, pulsesLeft := none }
          t.job sl =
              { Job.free with
                active := true, origin := .scene id, present := if d.hasRange = true then .main else .reference,
                permille := some p, requested := some x, target := some x, dir := run.dir, speed := run.speed,
                standing := .scene, member := .active, handed := true } ∧
            t.mvc.pins.get sl = false ∧ t.drive sl = { d with handed := some run }
        | _, _ => t.job sl = s.job sl ∧ t.mvc.pins.get sl = s.mvc.pins.get sl ∧ t.drive sl = s.drive sl) ∧
  (∀ (s : State) (e : SceneEntry), s.mvc.active = some e →
    let t := s.supersede.1
    let unstarted (sl : Slot) : Prop := ∃ q, s.queuedAt sl = some q ∧ ∀ d, q.origin ≠ .jog d
    ∃ e1 : SceneEntry, e1.id = e.id ∧ e1.requester = e.requester ∧ e1.learnSlot = e.learnSlot ∧
      (∀ sl : Slot,
        (∀ q, s.queuedAt sl = some q → (∀ d, q.origin ≠ .jog d) → e1.slots.get sl = .ended (q.cause.getD .superseded)) ∧
        (¬unstarted sl → e1.slots.get sl = e.slots.get sl) ∧
        (asksEnd s.supersede.2 sl .superseded ↔ (s.job sl).active = true ∧ (s.job sl).member = .active) ∧
        t.job sl = { s.job sl with member := if (s.job sl).member = .active then .ending else (s.job sl).member } ∧
        (unstarted sl → t.queuedAt sl = none) ∧ (¬unstarted sl → t.queuedAt sl = s.queuedAt sl)) ∧
      t.mvc.active = none ∧ t.adu = s.adu ∧ t.clu = s.clu ∧
      ((∃ sl : Slot, e1.slots.get sl = .pending) →
        t.mvc.ending = s.mvc.ending ++ [e1] ∧ t.mvc.outgoing = s.mvc.outgoing ∧ t.bus = s.bus) ∧
      ((∀ sl : Slot, e1.slots.get sl ≠ .pending) →
        t.mvc.ending = s.mvc.ending ∧ encode s.sender (.result e1.result) ∈ t.bus.general ++ t.mvc.outgoing)) ∧
  (∀ (s : State) (r : Role) (sl : Slot) (id : Nat), s.role = some r →
    ((kindOf r sl).bind (sceneTarget id r) = none → s.loadSlot sl id = (s, [.sceneOutcome sl .active .noJob])) ∧
    ∀ (k : Kind) (p : Nat), kindOf r sl = some k → sceneTarget id r k = some p →
      let barred := s.isOccupied = true ∧ k ≠ .slide ∧ (params k).seated < p
      let refused (o : JobOutcome) : Prop :=
        (s.loadSlot sl id).2 = [.endRequest sl .superseded, .sceneOutcome sl .active o] ∧
          (s.loadSlot sl id).1 = s.setQueued sl ((s.loadSlot sl id).1.queuedAt sl) ∧
          ((∀ q, s.queuedAt sl = some q → ∀ d, q.origin ≠ .jog d) → (s.loadSlot sl id).1 = s) ∧
          ∀ q d, s.queuedAt sl = some q → q.origin = .jog d → (s.loadSlot sl id).1.queuedAt sl = none
      (barred → refused .occupied) ∧
      (¬barred → (s.drive sl).disabled = true → refused .disabled) ∧
      (¬barred → (s.drive sl).disabled = false →
        s.loadSlot sl id =
          (s, [.replaceJob sl (.scene id p (sceneCount k p (s.drive sl).span) (!(s.drive sl).hasRange)) .superseded]))) ∧
  (∀ (s : State) (sl : Slot) (id p : Nat) (x : Int) (ref : Bool), (s.kindAt sl).isSome = true → (s.job sl).active = false →
    s.queuedAt sl = some ⟨.scene id p x ref, none⟩ → (s.drive sl).disabled = false →
    let t := (s.startQueued sl).1
    t.queuedAt sl = none ∧ (t.job sl).active = true ∧ (t.job sl).origin = .scene id ∧ (t.job sl).permille = some p ∧
      (t.job sl).requested = some x ∧ t.mvc.pins.get sl = false ∧ t.adu = s.adu ∧
      Report.handRun sl ∈ (s.startQueued sl).2 ∧
      (ref = true → (t.job sl).present = .reference ∧ (t.job sl).dir = .down ∧ (t.job sl).speed = .creep ∧ (t.job sl).entries = []) ∧
      (ref = false → (s.drive sl).hasRange = true → (t.job sl).present = .main ∧ (t.job sl).speed = .code 2))

/-- A SCENE that a gate refuses (R117, R120, R132): VEHICLE where the vehicle is not STILL with park, then SUPPLY where the level
is CRITICAL or UNKNOWN. No job changes, and the RESULT goes to a general slot with that outcome for each slot with a target and
NO_JOB for the others. -/
def Obligations.SceneGateRefuses : Prop :=
  ∀ (s : State) (n : Nat) (f : Frame) (rest : List RxFrame) (r : Role) (id : Nat) (scope : BitVec 6),
    TakesFrame s kScene false f rest → s.station = .run → s.role = some r → payload f = .scene id scope → id ≤ 5 →
    scope.getLsbD (roleCode r) = true → f.sender ≠ 6 → s.mvc.active = none →
    s.bus.busOff = none → s.clu.waiting = [] → s.mvc.outgoing = [] → s.bus.general.length < 5 →
    let parked := s.pmon.gateway.speed = .still ∧ s.pmon.gateway.park = true ∧ s.pmon.gateway.known = true
    ¬parked ∨ s.smon.level = .critical ∨ s.smon.level = .unknown →
    ∃ t, exec (.sceneTaken n) s = .next t ∧ SamePassages (s.leaving rest) t ∧ t.clu = s.clu ∧ t.adu = s.adu ∧ t.mvc = s.mvc ∧
      t.bus.general =
        s.bus.general ++
          [encode (roleCode r)
            (.result
              { id := id, requester := f.sender, reasons := .all 255
                outcomes := PerSlot.tabulate (fun sl =>
                  if ((kindOf r sl).bind (sceneTarget id r)).isSome = true then (if parked then 13 else 11) else 18) })]

/-- A STOP in RUN whose sender and scope allow it, while every job drives (R124, R92, R113): each job takes STOP as its cause and
each such drive goes off, to end STOP at the end of its brake period; the other axes stand as they were. Then when any end request
ends its job: at once where the run is not yet taken, waits, holds, or was taken in the brake period and has not driven, and at the
end of the brake period where it had driven (R92, R108, R113); the job keeps the cause, and the first cause decides. The outcome a run that ends by itself settles to (R114), and what the end of a job leaves (R54,
R113), with no claim of the job due in bus-off any longer (R38): after a YIELD job, a claim that waits with the axis still inside is declined CHAIN, be it the one the yield was for or one taken
meanwhile (R55, R57, R128). -/
def Obligations.StopEndsDrivingJobs : Prop :=
  (∀ (s : State) (n : Nat) (f : Frame) (rest : List RxFrame) (r : Role) (scope : BitVec 6),
    TakesFrame s kStop false f rest → s.station = .run → s.role = some r → payload f = .stop scope →
    scope.getLsbD (roleCode r) = true → f.sender ≠ 6 →
    (∀ sl : Slot, s.queuedAt sl = none ∧
      ((s.job sl).active = true →
        (s.job sl).cause = none ∧ (s.job sl).handed = true ∧ (s.drive sl).handed = none ∧ s.rcs.writing.get sl = none ∧
          (s.drive sl).axis = .driving)) →
    ∃ t, exec (.stopTaken n) s = .next t ∧ SamePassages (s.leaving rest) t ∧ t.clu = s.clu ∧
      t.mvc = { s.mvc with jobs := t.mvc.jobs } ∧
      ∀ sl : Slot,
        ((s.job sl).active = true →
          t.job sl = { s.job sl with cause := some .stop } ∧ t.drive sl = (s.drive sl).braked (.ended .stop)) ∧
        ((s.job sl).active = false → t.job sl = s.job sl ∧ t.drive sl = s.drive sl)) ∧
  (∀ (s : State) (sl : Slot) (o : JobOutcome), s.rcs.writing.get sl = none →
    ((s.job sl).active = false ∨ (s.job sl).cause.isSome = true → s.endRequest sl o = (s, [])) ∧
    ((s.job sl).active = true → (s.job sl).cause = none →
      let marked := s.setJob sl { s.job sl with cause := some o }
      ((s.drive sl).handed.isSome = true →
        s.endRequest sl o = (marked.setDrive sl { s.drive sl with handed := none }, [.finishJob sl o])) ∧
      ((s.drive sl).handed = none → (s.job sl).handed = false → s.endRequest sl o = (marked, [.finishJob sl o])) ∧
      ((s.drive sl).handed = none → (s.job sl).handed = true →
        ((s.drive sl).axis = .holding →
          (s.endRequest sl o).2 = [.finishJob sl o] ∧ (s.endRequest sl o).1.drive sl = (s.drive sl).atRest .idle ∧
            (s.endRequest sl o).1.mvc = marked.mvc) ∧
        ((s.drive sl).axis = .braking → (s.drive sl).waitingRun.isSome = true →
          s.endRequest sl o = (marked.setDrive sl { s.drive sl with waitingRun := none }, [.finishJob sl o])) ∧
        ((s.drive sl).axis = .braking → (s.drive sl).waitingRun = none → (s.drive sl).afterBrake = .joined →
          s.endRequest sl o = (marked.setDrive sl { s.drive sl with run := none, afterBrake := .idle }, [.finishJob sl o])) ∧
        ((s.drive sl).axis = .braking → (s.drive sl).waitingRun = none → (s.drive sl).afterBrake ≠ .joined →
          (∀ x, (s.drive sl).afterBrake ≠ .ended x) →
          s.endRequest sl o = (marked.setDrive sl { s.drive sl with afterBrake := .ended o }, []))))) ∧
  (∀ (s : State) (sl : Slot) (k : Kind) (x : Int) (o : JobOutcome),
    s.kindAt sl = some k → (s.job sl).active = true → (s.job sl).requested = some x →
    (∀ c, (s.job sl).cause = some c → s.runEnded sl (.outcome o) = (s, [.finishJob sl c])) ∧
    ((s.job sl).cause = none →
      s.runEnded sl (.outcome o) =
        (s, [.finishJob sl
          (if o = .done ∨ o = .blockedLimit then
             (if |x - (s.drive sl).count| ≤ (params k).coast then .done
              else match (s.job sl).firstFailure with
                | some (.declined r) => .declined r
                | some .wait => .wait
                | some .peerLost => .peerLost
                | some .unheard => .unheard
                | some .conflict => .conflict
                | none => .blockedLimit)
           else o)]))) ∧
  (∀ (s : State) (sl : Slot) (o : JobOutcome), (s.job sl).active = true →
    let undue : State :=
      { s with clu := { s.clu with
          due := s.clu.due.filter (fun x => ¬(x.kind = .claim ∧ x.frame = none ∧ ∃ v ∈ s.pairsOf sl, v.pair = x.pair)) } }
    let freed := (undue.setJob sl { Job.free with outcome := some o }).setPin sl
      (if (s.job sl).origin.isScene = true ∧ o = .done then true else s.mvc.pins.get sl)
    (s.finishJob sl o).1 =
        (match (s.job sl).origin with
         | .yield p =>
           freed.updView p (fun v => { v with yieldAsked := if v.waitedHolder = some sl then true else v.yieldAsked })
         | .scene _ | .jog | .learn => freed) ∧
      (∀ e ∈ (s.job sl).entries, ∀ v, s.view? e.pair = some v → e.status = .needed ∨ e.status = .claimed →
        Report.withdraw sl e.pair e.status v.state ∈ (s.finishJob sl o).2) ∧
      (∀ v ∈ s.pairsOf sl,
        Report.release v.pair ∈ (s.finishJob sl o).2 ∧ Report.evalYield v.pair ∈ (s.finishJob sl o).2) ∧
      Report.sceneOutcome sl (s.job sl).member o ∈ (s.finishJob sl o).2 ∧ Report.startQueued sl ∈ (s.finishJob sl o).2) ∧
  (∀ (s : State) (sl : Slot) (o : JobOutcome) (p : Nat) (v : View) (own : Role), (s.job sl).active = true →
    (s.job sl).origin = .yield p → s.view? p = some v → v.peerRole.isSome = true → v.slot = sl → v.state = .ownWait →
    s.ownInside v = true → v.inFlight = none → s.station = .run → s.bus.busOff = none → s.role = some own →
    let t := (s.finishJob sl o).1
    (t.evalYield p).2 = [] ∧ t.Sends (t.evalYield p).1 p .decline (passageFrame kDecline own p 6))

/-- A LEARN from the gateway for this role and an axis of it, past the gates, where the axis already has every passage it needs
(R129 to R131): the scene record opens for the learn, its entries are all HELD, and the LEARN run is handed. Where a gate stops it,
VEHICLE before OCCUPIED before SUPPLY, no job and no scene record changes, and the RESULT with the gate's outcome goes to a general
slot (R129, R132). -/
def Obligations.LearnStartsWhenHeld : Prop :=
  (∀ (s : State) (n : Nat) (f : Frame) (rest : List RxFrame) (r : Role) (sl : Slot),
    TakesFrame s kLearn false f rest → s.station = .run → s.role = some r → f.sender = 7 →
    payload f = .learn (roleCode r) (slotIndex sl) → (kindOf r sl).isSome = true →
    s.pmon.gateway.speed = .still → s.pmon.gateway.park = true → s.pmon.gateway.known = true → s.isOccupied = false →
    s.smon.level = .ok ∨ s.smon.level = .low → s.mvc.active = none → (s.job sl).active = false → s.queuedAt sl = none →
    (s.pairsOf sl).length ≤ 10 →
    (∀ v ∈ s.pairsOf sl, s.view? v.pair = some v ∧ v.gives sl = true ∧ v.inFlight = none ∧ v.cedeDue = false) →
    ∃ t, exec (.learnTaken n) s = .next t ∧ SamePassages (s.leaving rest) t ∧ t.clu = s.clu ∧
      t.mvc.active =
        some { id := .learn, requester := 7, learnSlot := some sl
               slots := PerSlot.tabulate (fun x => if x = sl then .pending else .ended .noJob) } ∧
      t.job sl =
        { Job.free with
          active := true, origin := .learn, speed := .creep, standing := .service, member := .active, handed := true,
          entries := (s.pairsOf sl).map (fun v => ⟨v.pair, .held⟩) } ∧
      t.drive sl =
        { s.drive sl with
          handed := some { origin := .learn, dir := .down, target := none, speed := .creep, secondLeg := false,
                           pulsesLeft := none } } ∧
      ∀ x, x ≠ sl → t.job x = s.job x ∧ t.drive x = s.drive x) ∧
  ∀ (s : State) (n : Nat) (f : Frame) (rest : List RxFrame) (r : Role) (sl : Slot),
    TakesFrame s kLearn false f rest → s.station = .run → s.role = some r → f.sender = 7 →
    payload f = .learn (roleCode r) (slotIndex sl) → (kindOf r sl).isSome = true →
    s.bus.busOff = none → s.clu.waiting = [] → s.mvc.outgoing = [] → s.bus.general.length < 5 →
    ¬s.Parked ∨ s.isOccupied = true ∨ s.smon.level = .critical ∨ s.smon.level = .unknown →
    let code := if ¬s.Parked then 11 else if s.isOccupied = true then 12 else 13
    ∃ t, exec (.learnTaken n) s = .next t ∧ SamePassages (s.leaving rest) t ∧ t.clu = s.clu ∧ t.adu = s.adu ∧ t.mvc = s.mvc ∧
      t.bus.general =
        s.bus.general ++
          [encode (roleCode r)
            (.result { id := 14, requester := 7, outcomes := (PerSlot.all 18).set sl code, reasons := .all 255 })]

/-- Frames passed over: a RESULT is taken by no block (R149), and a station in STANDSTILL takes every frame and acts on none
(R158, R172). -/
def Obligations.FramesPassedOver : Prop :=
  (∀ (s : State) (f : Frame) (rest : List RxFrame),
    TakesFrame s kResult false f rest ∨ TakesFrame s kResult true f rest → s.amon.activityDue = false →
    exec .resultTaken s = .next (s.leaving rest)) ∧
  (∀ (s : State) (n k : Nat) (c : Instr) (f : Frame) (e : Bool) (rest : List RxFrame),
    ((c, k) ∈ takenKinds n ∧ e = false ∨
      (c, k) ∈ [(Instr.ownClaimEcho n, kClaim), (.ownCedeEcho n, kCede), (.ownDeclineEcho n, kDecline), (.ownStakeEcho n, kStake)]
        ∧ e = true) →
    s.station = .standstill → s.bus.rx = ⟨f, e⟩ :: rest → f.kind = k → s.amon.activityDue = false →
    ∃ t, exec c s = .next t ∧ t = { s.leaving rest with vsense := t.vsense })

/-! ### The seat bus interface (chapter 9) -/

/-- The filter (R148): each frame it drops enters no receive queue and changes nothing, and every other frame, whatever sender its
kind belongs to, enters the queue. -/
def Obligations.FilterDrops : Prop :=
  ∀ (f : BusFrame) (s : State),
    let kind := f.ident.toNat / 128
    let dropped :=
      kind = 0 ∨ 11 ≤ kind ∨ f.ident.toNat / 16 % 8 = 6 ∨ f.ident.toNat % 16 ≠ 0 ∨
        f.data.length ≠ (if kind = 9 then 24 else 8) ∨ f.fdData11 = false
    (dropped → exec (.frameReceived f) s = .next s) ∧
    (¬dropped → s.station = .sync ∨ s.station = .run ∨ s.station = .standstill → s.bus.busOff = none → s.bus.attempt = none →
      s.bus.rx.length < 8 →
      exec (.frameReceived f) s =
        .next { s with bus := { s.bus with rx := s.bus.rx ++ [⟨⟨f.ident, f.data⟩, false⟩] } })

/-- A frame that passes the filter (R149, R150): it enters the queue as no echo; where the queue holds 8 it is dropped, and in
SYNC and RUN every peer record is marked for forced reconciliation; in START, in bus-off and while reset is held nothing is
received. -/
def Obligations.FrameEntersQueue : Prop :=
  ∀ (f : BusFrame) (s : State),
    let kind := f.ident.toNat / 128
    1 ≤ kind → kind ≤ 10 → f.ident.toNat / 16 % 8 ≠ 6 → f.ident.toNat % 16 = 0 →
    f.data.length = (if kind = 9 then 24 else 8) → f.fdData11 = true → s.bus.attempt = none →
    (s.station = .sync ∨ s.station = .run ∨ s.station = .standstill → s.bus.busOff = none → s.bus.rx.length < 8 →
      exec (.frameReceived f) s =
        .next { s with bus := { s.bus with rx := s.bus.rx ++ [⟨⟨f.ident, f.data⟩, false⟩] } }) ∧
    (s.station = .sync ∨ s.station = .run → s.bus.busOff = none → 8 ≤ s.bus.rx.length →
      exec (.frameReceived f) s =
        .next { s with pmon := { s.pmon with peers := s.pmon.peers.map (fun p => { p with forced := true }) } }) ∧
    (s.station = .standstill → 8 ≤ s.bus.rx.length → exec (.frameReceived f) s = .next s) ∧
    (s.station = .held ∨ s.station = .start ∨ s.bus.busOff.isSome = true → exec (.frameReceived f) s = .next s)

/-- A transmission attempt (R147, R151): made in SYNC and RUN outside bus-off, with at most 7 frames in the receive queue, of the
frame of lowest identifier among those held, the first placed among equals. Otherwise none is made. -/
def Obligations.AttemptOffersLowest : Prop :=
  (∀ s : State, s.station = .sync ∨ s.station = .run → s.bus.busOff = none → s.bus.attempt = none → s.bus.rx.length ≤ 7 →
    s.bus.general ++ s.bus.status.toList ≠ [] →
    ∃ f a b, exec .transmissionAttempt s = .next { s with bus := { s.bus with attempt := some f } } ∧
      s.bus.general ++ s.bus.status.toList = a ++ f :: b ∧ (∀ g ∈ a, f.ident.toNat < g.ident.toNat) ∧
      ∀ g ∈ b, f.ident.toNat ≤ g.ident.toNat) ∧
  (∀ s : State,
    (s.station ≠ .sync ∧ s.station ≠ .run) ∨ s.bus.busOff.isSome = true ∨ 8 ≤ s.bus.rx.length ∨
      s.bus.general ++ s.bus.status.toList = [] → s.bus.attempt = none → exec .transmissionAttempt s = .next s)

/-- An attempt that ends without its frame completing (R147, R154, R156): the frame stays, the error count is unchanged or rises by
8 (by nothing from 128 upward where only the acknowledgement was missing), a STATUS waiting beside the slot replaces an attempted
one; and above 255 the interface is in bus-off with both queues empty and each sent passage frame lost. -/
def Obligations.AttemptFails : Prop :=
  ∀ (s : State) (f : Frame), s.bus.attempt = some f →
    let ended : Bif :=
      { s.bus with
        attempt := none
        status := if f.kind = kStatus ∧ s.bus.statusBeside.isSome = true then s.bus.statusBeside else s.bus.status
        statusBeside := if f.kind = kStatus then none else s.bus.statusBeside }
    exec .arbitrationLost s = .next { s with bus := ended } ∧
    ∀ noAck : Bool,
      let errors := if noAck = true ∧ 128 ≤ s.bus.errors then s.bus.errors else s.bus.errors + 8
      (errors ≤ 255 → exec (.attemptError noAck) s = .next { s with bus := { ended with errors := errors } }) ∧
      (255 < errors →
        exec (.attemptError noAck) s =
          .next { s with
            bus := { rx := [], status := none, statusBeside := none, general := [], attempt := none, errors := errors,
                     busOff := some 200 }
            clu := { s.clu with
              views := s.clu.views.map (fun v =>
                if s.clu.waiting.any (fun g => passagePair g == some v.pair) then v else { v with inFlight := none }) } })

/-- A completed frame (R147, R149, R151, R154): it leaves the transmit side, its echo enters the receive queue, the error count
falls by one and not below 0, and a STATUS waiting beside takes the empty slot. -/
def Obligations.CompletedFrameEchoes : Prop :=
  ∀ (s : State) (f : Frame), s.bus.attempt = some f →
    exec .frameCompleted s =
      .next { s with
        bus := { s.bus with
          rx := s.bus.rx ++ [⟨f, true⟩], attempt := none, errors := s.bus.errors - 1
          general := if f.kind = kStatus then s.bus.general else s.bus.general.erase f
          status := if f.kind = kStatus then s.bus.statusBeside else s.bus.status
          statusBeside := if f.kind = kStatus then none else s.bus.statusBeside } }

/-- Expiry of the bus-off timer (R157, R79): the interface rejoins with an error count of 0, and every peer record is marked for
forced reconciliation. A claim that bus-off holds back is due behind those that were due before it, and at the rejoin the two claims of
one job are sent in the order in which they fell due (R38, R48, R151, R157). -/
def Obligations.RejoinAfterBusOff : Prop :=
  (∀ (s : State) (n : Nat), s.bus.busOff.isSome = true → s.station = .sync ∨ s.station = .run →
    ∃ t, exec (.busOffTimerExpiry n) s = .next t ∧
      SamePassages
        { s with
          bus := { s.bus with busOff := none, errors := 0 }
          pmon := { s.pmon with peers := s.pmon.peers.map (fun p => { p with forced := true }) } } t) ∧
  (∀ (s : State) (sl : Slot) (p : Nat) (v : View), s.view? p = some v → v.peerRole.isSome = true →
    v.state = .opened ∨ v.state = .peer → v.inFlight = none → v.cedeDue = false → s.unheard = false → s.bus.busOff.isSome = true →
    (s.job sl).active = true → (s.job sl).entryOf p = some .needed → ⟨p, .claim, none⟩ ∉ s.clu.due →
    s.decideEntry sl p = ({ s with clu := { s.clu with due := s.clu.due ++ [⟨p, .claim, none⟩] } }, [])) ∧
  (∀ (s : State) (n : Nat) (r : Role) (sl : Slot) (a b : Nat) (va vb : View),
    s.bus.busOff.isSome = true → s.station = .run → s.role = some r → s.unheard = false →
    s.clu.due = [⟨a, .claim, none⟩, ⟨b, .claim, none⟩] → a ≠ b → s.view? a = some va → s.view? b = some vb →
    (∀ v ∈ [va, vb], v.slot = sl ∧ v.peerRole.isSome = true ∧ v.state = .opened ∧ v.inFlight = none ∧ v.cedeDue = false) →
    (s.job sl).active = true → (s.job sl).entries = [⟨a, .needed⟩, ⟨b, .needed⟩] → (s.drive sl).axis ≠ .holding →
    (∀ y, y ≠ sl → (s.job y).entries = []) →
    let claim (p : Nat) : Frame := passageFrame kClaim r p (standingCode (s.job sl).standing)
    ∃ t x y z, exec (.busOffTimerExpiry n) s = .next t ∧
      t.bus.general ++ t.clu.waiting = x ++ claim a :: y ++ claim b :: z)

/-- A free general slot (R152): it goes to the frame of lowest identifier among those that wait with the CLU and the oldest of the
MVC's outgoing list, the CLU's first among equals; the frame leaves the list it waited in. Among the CLU's the first is the one that
fell due first: a CEDE due is handed, once nothing is in flight for its pair, to the place in which it fell due (R38), and so comes
before a CEDE that began to wait after that. At the echo of a CLAIM it is handed whatever view the echo leaves, before any block acts on the
change of the view (R38, R39). -/
def Obligations.FreeSlotAssigned : Prop :=
  (∀ s : State, s.station = .sync ∨ s.station = .run → s.bus.busOff = none → s.bus.general.length < 5 →
    s.clu.waiting ++ s.mvc.outgoing.take 1 ≠ [] →
    ∃ f a b, s.clu.waiting ++ s.mvc.outgoing.take 1 = a ++ f :: b ∧ (∀ g ∈ a, f.ident.toNat < g.ident.toNat) ∧
      (∀ g ∈ b, f.ident.toNat ≤ g.ident.toNat) ∧
      (f ∈ s.clu.waiting →
        exec .generalSlotAssignment s =
          .next { s with
            bus := { s.bus with general := s.bus.general ++ [f] }
            clu := { s.clu with due := s.clu.due.eraseP (fun x => x.frame == some f) } }) ∧
      (f ∉ s.clu.waiting →
        exec .generalSlotAssignment s =
          .next { s with
            bus := { s.bus with general := s.bus.general ++ [f] },
            mvc := { s.mvc with outgoing := s.mvc.outgoing.drop 1 } })) ∧
  (∀ (s : State) (p : Nat) (v : View) (own : Role),
    s.view? p = some v → s.role = some own → s.station = .run → s.bus.busOff = none → v.inFlight = none → v.cedeDue = true →
    let u := s.updView p (fun w => { w with cedeDue := false, waitTimer := none })
    (s.serve p).2 = [] ∧ u.Sends (s.serve p).1 p .cede (passageFrame kCede own p 0)) ∧
  (∀ (s : State) (p q : Nat) (f : Frame) (v : View) (own : Role),
    s.view? p = some v → s.role = some own → s.station = .run → s.bus.busOff = none → v.inFlight = none → v.cedeDue = true →
    s.clu.due = [⟨p, .cede, none⟩, ⟨q, .cede, some f⟩] →
    (s.serve p).1.clu.waiting = [passageFrame kCede own p 0, f]) ∧
  (∀ (s : State) (f : Frame) (rest : List RxFrame) (v : View) (own : Role),
    TakesFrame s kClaim true f rest → s.view? (f.byte 0) = some v → v.peerRole.isSome = true → s.role = some own →
    s.station = .run → s.bus.busOff = none → v.inFlight = some .claim → v.cedeDue = true →
    let t := (s.takeEcho kClaim .claim State.ownClaim).1
    (∃ w, t.view? v.pair = some w ∧ w.inFlight = some .cede ∧ w.cedeDue = false ∧ w.waitTimer = none ∧
      w.state =
        (match v.state with
         | .opened | .pending => .own
         | .peer => .queued
         | x => x)) ∧
      passageFrame kCede own v.pair 0 ∈ t.bus.general ++ t.clu.waiting ∧ t.adu = s.adu)

/-- Expiry of the status timer (R142, R154, R155): a STATUS from the state as it stands goes to the STATUS slot, or beside it while
the STATUS there is being sent, or nowhere in bus-off; the sequence advances and the timer restarts. -/
def Obligations.StatusTimerBuildsStatus : Prop :=
  ∀ (s : State) (r : Role), s.pmon.statusTimer.isSome = true → s.station = .sync ∨ s.station = .run → s.role = some r →
    ∃ t f c, exec .statusTimerExpiry s = .next t ∧ f = encode (roleCode r) (.status c) ∧
      t =
        { s with
          bus :=
            if s.bus.busOff.isSome = true then s.bus
            else if ∃ g, s.bus.attempt = some g ∧ g.kind = kStatus then { s.bus with statusBeside := some f }
            else { s.bus with status := some f }
          pmon :=
            { s.pmon with
              seq := (s.pmon.seq + 1) % 16, statusTimer := some (if s.amon.mode = .active then 20 else 100) } } ∧
      c.seq = s.pmon.seq ∧ c.mode = s.amon.mode ∧ c.occupied = s.liu.occupancy.stable ∧
      (c.unheard = true ↔ ∃ p ∈ s.pmon.peers, p.state = .present ∧ p.missesMe = true) ∧
      (c.conflict = true ↔ ∃ v ∈ s.clu.views, v.state = .conflict) ∧ c.clash = s.pmon.clashWindow.isSome ∧
      c.vehicleUnknown = !s.pmon.gateway.known ∧ c.level = s.smon.level ∧
      (∀ k : Nat, k < 24 →
        (c.holdSet.getLsbD k = true ↔
          ∃ v ∈ s.clu.views, v.pair = k ∧ v.peerRole.isSome = true ∧ (v.state = .own ∨ v.state = .ownWait))) ∧
      c.scene = (match s.mvc.active with | some e => (match e.id with | .scene i => i | .learn => 15) | none => 15) ∧
      ∀ sl : Slot, (s.kindAt sl).isSome = true →
        (c.slots.get sl).axis = (s.drive sl).axis ∧ (c.slots.get sl).lock = (s.drive sl).lock ∧
          (c.slots.get sl).referenced = (s.drive sl).referenced ∧ (c.slots.get sl).disabled = (s.drive sl).disabled ∧
          (c.slots.get sl).dir = (s.drive sl).dir ∧ (c.slots.get sl).interval = s.occupiedAt sl

/-- The miss set of each STATUS the station builds, whatever has it built (R73): the roles whose record is LOST, and in RUN those
whose record is ABSENT; never the station's own, for which it keeps no record. The one a status timer's expiry builds carries it
to the STATUS slot. -/
def Obligations.MissSetOfStatus : Prop :=
  (∀ (s : State) (r : Role), s.station = .sync ∨ s.station = .run → s.role = some r → (∀ p ∈ s.pmon.peers, p.role ≠ r) →
    (∀ x : Role, s.statusContent.missSet.getLsbD (roleCode x) = true ↔
      ∃ p ∈ s.pmon.peers, p.role = x ∧ (p.state = .lost ∨ s.station = .run ∧ p.state = .absent)) ∧
    s.statusContent.missSet.getLsbD (roleCode r) = false) ∧
  ∀ (s : State) (r : Role), s.pmon.statusTimer.isSome = true → s.station = .sync ∨ s.station = .run → s.role = some r →
    s.bus.busOff = none → s.bus.attempt = none → (∀ p ∈ s.pmon.peers, p.role ≠ r) →
    ∃ t f c, exec .statusTimerExpiry s = .next t ∧ t.bus.status = some f ∧ f = encode (roleCode r) (.status c) ∧
      (∀ x : Role, c.missSet.getLsbD (roleCode x) = true ↔
        ∃ p ∈ s.pmon.peers, p.role = x ∧ (p.state = .lost ∨ s.station = .run ∧ p.state = .absent)) ∧
      c.missSet.getLsbD (roleCode r) = false

/-- The layouts of the frames (R146, R159) hold every payload whose fields are at defined values: what a sender builds, a receiver
reads back, under the sender's code, and its filter passes it. -/
def Obligations.FrameRoundTrip : Prop :=
  ∀ (sender : Nat) (p : Payload), sender < 8 → p.wf →
    payload (encode sender p) = p ∧ (encode sender p).sender = sender ∧
      (sender ≠ 6 → passesFilter ⟨true, (encode sender p).ident, (encode sender p).data⟩ = true)

/-- A field of a received frame outside its defined codes (R159): a standing or reason without a code, an undefined speed class,
an axis state 6 or 7 as FAULT, interval figures above 1000 as 1000, low above high as [0, 1000], supply level 3 as UNKNOWN. -/
def Obligations.UndefinedFieldsRead : Prop :=
  ∀ f : Frame,
    (f.kind = kClaim → 4 ≤ f.byte 1 → payload f = .claim (f.byte 0) none) ∧
    (f.kind = kDecline → 7 ≤ f.byte 1 → payload f = .decline (f.byte 0) none) ∧
    (f.kind = kVehicle → 3 ≤ f.byte 0 → payload f = .vehicle none (bitOf (f.byte 1) 0)) ∧
    (f.kind = kStatus →
      ∃ c, payload f = .status c ∧ (f.byte 1 / 32 % 4 = 3 → c.level = .unknown) ∧
        ∀ sl : Slot,
          let o := 8 + 5 * slotIndex sl
          let low := min (f.byte (o + 1) + 256 * f.byte (o + 2)) 1000
          let high := min (f.byte (o + 3) + 256 * f.byte (o + 4)) 1000
          (6 ≤ f.byte o % 8 → (c.slots.get sl).axis = .fault) ∧
            (c.slots.get sl).interval = (if high < low then ⟨0, 1000⟩ else ⟨low, high⟩))

/-! ### The axis drive units (chapter 5) -/

/-- A control interval on an axis driven to a count target (R94 to R97, R26 to R28): the setpoint from the distance to the stop point,
the error against the measured speed, the mode test, and the duty with the gain of the new mode; a run at creep holds creep and SEEK.
Where the count has reached the stop point, under the allowance in force or under that of a LOCK which the mode test clears, the drive
goes off instead (R26, R91, R96). The pulse history of every axis moves on, and nothing else of any drive changes. -/
def Obligations.SpeedLoopInterval : Prop :=
  ∀ (s : State) (n : Nat) (sl : Slot) (k : Kind) (r : Run) (x lo hi : Int),
    s.station = .start ∨ s.station = .sync ∨ s.station = .run → s.ViewsQuiet → s.kindAt sl = some k →
    (s.drive sl).axis = .driving → (s.drive sl).run = some r → (s.drive sl).handed = none → r.target = some x →
    s.envelopeFor sl = .limits lo hi →
    (∀ y, y ≠ sl → (s.drive y).axis ≠ .driving ∧ (s.drive y).axis ≠ .holding ∧ (s.drive y).handed = none) →
    let d := s.drive sl
    let q := params k
    let allowance : Int := if d.lock = true then q.coast else 2 * q.coast
    let stop : Int := match r.dir with | .up => min x (hi - allowance) | .down => max x (lo + allowance)
    let ahead (x : Int) : Prop := match r.dir with | .up => (d.count : Int) < x | .down => x < (d.count : Int)
    let moved : Drive := { d with pulses := ⟨0, d.pulses.p0, d.pulses.p1, d.pulses.p2⟩ }
    let off : Drive := moved.braked (if r.origin = .relief then .ended .obstructed else .retest)
    ∃ t, exec (.controlInterval n) s = .next t ∧ SamePassages s t ∧
      (¬ahead stop → t.drive sl = off) ∧
      (ahead stop →
       let far : Int := |stop - d.count|
       let v : Int :=
         match r.speed with
         | .creep => q.creep
         | .code c =>
           let v0 := max q.creep (min (cruise k c) (min (q.creep + q.slope * far) (d.vset + q.creep)))
           if s.smon.level = .low then min v0 (2 * q.creep) else v0
       let e : Int := v - 25 * ((d.pulses.p0 + d.pulses.p1 + d.pulses.p2 + d.pulses.p3 : Nat) : Int)
       let m : LoopMode × Bool × Nat :=
         match r.speed, d.loop with
         | .creep, _ => (.seek, false, 0)
         | .code _, .seek =>
           if |e| * 8 ≤ v then (if 2 ≤ d.close then (.track, true, 3) else (.seek, d.lock, d.close + 1)) else (.seek, d.lock, 0)
         | .code _, .track => if v < |e| * 4 then (.seek, false, 0) else (.track, d.lock, d.close)
       let gain : Int := match m.1 with | .seek => 2 | .track => 8
       let kept : Int := if d.lock = true ∧ m.2.1 = true then q.coast else 2 * q.coast
       let next : Int := match r.dir with | .up => min x (hi - kept) | .down => max x (lo + kept)
       (ahead next →
         t.drive sl =
           { moved with
             vset := v, loop := m.1, lock := m.2.1, close := m.2.2, stop := some next
             duty := max 0 (min 1000 (d.duty + (e * 1000).tdiv (gain * q.vmax))) }) ∧
       (¬ahead next → t.drive sl = off)) ∧
      ∀ y, y ≠ sl →
        t.drive y =
          if (s.kindAt y).isSome = true then
            { s.drive y with
              pulses := ⟨0, (s.drive y).pulses.p0, (s.drive y).pulses.p1, (s.drive y).pulses.p2⟩ }
          else s.drive y

/-- A run handed to an IDLE axis is taken at the next control interval and driven where its stop point lies beyond the count (R89,
R26, R134, R140): the axis enters DRIVING, the supply is sampled at once since no other axis moved, and leaving IDLE is an activity
event. A REFERENCE run is taken under the condition of R25 (R105, R119): driven, with a job timer for 8000 counts (R34), where the condition
is open, and HOLDING where it is frozen. That the same condition governs it on an axis with a count envelope is the model's reading
(notes/assumptions/53.md). -/
def Obligations.HandedRunIsDriven : Prop :=
  (∀ (s : State) (n : Nat) (sl : Slot) (k : Kind) (r : Run) (x lo hi : Int),
    s.station = .start ∨ s.station = .sync ∨ s.station = .run → s.ViewsQuiet → s.kindAt sl = some k →
    (s.drive sl).axis = .idle → (s.drive sl).handed = some r → s.rcs.writing.get sl = none → r.origin ≠ .learn →
    r.target = some x → x ≠ (s.drive sl).count → s.envelopeFor sl = .limits lo hi →
    (∀ y, y ≠ sl → (s.drive y).axis ≠ .driving ∧ (s.drive y).axis ≠ .holding ∧ (s.drive y).handed = none) →
    s.smon.driveSet = .all false → s.smon.level = .ok ∨ s.smon.level = .low → 110 ≤ n →
    let d := s.drive sl
    let stop : Int :=
      match r.dir with | .up => min x (hi - 2 * (params k).coast) | .down => max x (lo + 2 * (params k).coast)
    (match r.dir with | .up => (d.count : Int) < stop | .down => stop < (d.count : Int)) →
    ∃ t, exec (.controlInterval n) s = .next t ∧ SamePassages s t ∧
      t.drive sl =
        ({ d with handed := none, pulses := ⟨0, d.pulses.p0, d.pulses.p1, d.pulses.p2⟩ } : Drive).entered r k |x - d.count|
          (some stop) ∧
      t.smon = { level := .ok, recovery := 0, driveSet := s.smon.driveSet.set sl true, timer := some 10 } ∧
      t.amon = { mode := .active, quiet := some 30000, activityDue := false }) ∧
  (∀ (s : State) (sl : Slot) (k : Kind) (r : Run),
    s.kindAt sl = some k → (s.drive sl).axis = .idle → r.origin = .reference → r.target = none → r.pulsesLeft = none →
    s.smon.level = .ok ∨ s.smon.level = .low →
    let d : Drive := { s.drive sl with handed := none }
    let ranged : Prop := ∃ lo hi, s.clu.envelopes.get sl = .limits lo hi
    let given : Prop := ∀ v ∈ s.pairsOf sl, v.gives sl = true
    (s.clu.envelopes.get sl = .opened ∨ ranged ∧ given → (s.takeRun sl r).1.drive sl = d.entered r k 8000 none) ∧
    (s.clu.envelopes.get sl = .frozen ∨ ranged ∧ ¬given →
      (s.takeRun sl r).1.drive sl = { d.atRest .holding with run := some r }))

/-- A hall pulse on an axis (R88, R175, R166): the count moves one step in the drive direction, held to 0..8191, and its retained
record with it; and the pulse enters the history. On a DRIVING axis the stall timer restarts and a held expiry is cleared (R88,
R99); the stop point follows the envelope of the new count; and a drive that the pulse brings to its stop point goes off, as does a
relief run without a target at its last pulse (R91, R104). That the stop point moves on with a LOCK which the last control interval has
set, at the first pulse that does not reach the former one, is the model's choice (notes/assumptions/49.md). -/
def Obligations.HallPulseCounts : Prop :=
  ∀ (s : State) (sl : Slot) (n : Nat), s.station ≠ .held → (s.kindAt sl).isSome = true →
    let d := s.drive sl
    let c : Nat := match d.dir with | .up => if d.count < 8191 then d.count + 1 else d.count | .down => d.count - 1
    let p : PulseHistory := { d.pulses with p0 := d.pulses.p0 + 1 }
    ∃ t, exec (.hallPulse sl n) s = .next t ∧ SamePassages (s.setDrive sl { d with count := c }) t ∧
      t.rcs.retained.get sl = ⟨c, (t.drive sl).referenced⟩ ∧ (t.drive sl).pulses = p ∧
      (d.axis = .driving → (t.drive sl).axis = .driving → (t.drive sl).stallTimer = some 120 ∧ (t.drive sl).stallHeld = false) ∧
      (d.axis ≠ .driving → d.axis ≠ .holding → t.drive sl = { d with count := c, pulses := p }) ∧
      (∀ (r : Run) (stop x lo hi : Int), d.axis = .driving → d.run = some r → r.pulsesLeft = none → d.stop = some stop →
        r.target = some x → (s.setDrive sl { d with count := c }).nextEnvelope sl = .limits lo hi →
        let ahead (y : Int) : Prop := match r.dir with | .up => (c : Int) < y | .down => y < (c : Int)
        let allowance : Int :=
          match s.kindAt sl with | some k => if d.lock = true then (params k).coast else 2 * (params k).coast | none => 0
        let next : Int := match r.dir with | .up => min x (hi - allowance) | .down => max x (lo + allowance)
        (ahead stop → ahead next →
          t.drive sl =
            { d with count := c, pulses := p, stallTimer := some 120, stallHeld := false, stop := some next }) ∧
        (¬ahead stop ∨ ¬ahead next →
          t.drive sl =
            ({ d with count := c, pulses := p } : Drive).braked (if r.origin = .relief then .ended .obstructed else .retest))) ∧
      (∀ (r : Run), d.axis = .driving → d.run = some r → r.origin = .relief → r.pulsesLeft = some 1 →
        t.drive sl =
          ({ d with count := c, pulses := p, run := some { r with pulsesLeft := some 0 } } : Drive).braked (.ended .obstructed))

/-- The end of the brake period (R91, R101): an ended run on an axis with no job leaves it IDLE and out of the drive set; an
obstructed one is relieved, 20 counts back at creep, where its stop point lies beyond the count; a waiting run is taken as from IDLE
(R90), and driven where its stop point lies beyond the count; and a scene goes on from its REFERENCE run with its move, in the same job
record (R119). Within the period, a run taken in the last direction that may drive ends SUPPLY at once where the supply bars it (R98,
R108), and one that may not drive is the present run (R89). The model's choice is: that an axis which drives its waiting run does not
leave the drive set in between, so that the supply monitor and the activity monitor stand as they were and no sample is taken
(notes/assumptions/46.md); that a present run which is still active gives way to the waiting one with no report (39.md); that a run taken
in the last direction takes the place of a present one with no report of that one's end (38.md); that a run taken so whose target is the
count becomes the present run (34.md); and that a scene already at its target takes direction down (10.md). -/
def Obligations.BrakePeriodEnds : Prop :=
  (∀ (s : State) (sl : Slot) (n : Nat),
    (s.drive sl).axis = .braking → (s.drive sl).brakeTimer.isSome = true → (s.drive sl).waitingRun = none →
    (s.drive sl).afterBrake = .idle ∨ (∃ o, (s.drive sl).afterBrake = .ended o) → (s.job sl).active = false →
    s.amon.activityDue = false →
    exec (.brakeTimerExpiry sl n) s =
      .next ({ s with
        vsense := n, smon := { s.smon with driveSet := s.smon.driveSet.set sl false } }.setDrive sl ((s.drive sl).atRest .idle))) ∧
  (∀ (s : State) (sl : Slot) (n : Nat) (k : Kind) (r : Run) (lo hi : Int),
    s.kindAt sl = some k → (s.drive sl).axis = .braking → (s.drive sl).brakeTimer.isSome = true →
    (s.drive sl).waitingRun = none → (s.drive sl).afterBrake = .relief → (s.drive sl).run = some r → (s.drive sl).hasRange = true →
    s.clu.envelopes.get sl = .limits lo hi → s.smon.level = .ok ∨ s.smon.level = .low →
    s.smon.driveSet.get sl = true → s.amon.activityDue = false →
    let d := s.drive sl
    let back : Dir := match d.dir with | .up => .down | .down => .up
    let x : Int := match back with | .up => (d.count : Int) + 20 | .down => (d.count : Int) - 20
    let stop : Int := match back with | .up => min x (hi - 2 * (params k).coast) | .down => max x (lo + 2 * (params k).coast)
    (match back with | .up => (d.count : Int) < stop | .down => stop < (d.count : Int)) →
    let relief : Run :=
      { origin := .relief, dir := back, target := some x, speed := .creep, secondLeg := false, pulsesLeft := none }
    exec (.brakeTimerExpiry sl n) s =
      .next (({ s with vsense := n }.setJob sl { s.job sl with present := .relief }).setDrive sl
        (d.entered relief k 20 (some stop)))) ∧
  (∀ (s : State) (sl : Slot) (n : Nat) (k : Kind) (w : Run) (x lo hi : Int),
    s.kindAt sl = some k → (s.drive sl).axis = .braking → (s.drive sl).brakeTimer.isSome = true →
    (s.drive sl).waitingRun = some w →
    (s.drive sl).afterBrake = .idle ∨ (s.drive sl).afterBrake = .retest ∨ (s.drive sl).afterBrake = .joined → w.origin ≠ .learn →
    w.target = some x → x ≠ (s.drive sl).count → s.clu.envelopes.get sl = .limits lo hi →
    s.smon.level = .ok ∨ s.smon.level = .low → s.smon.driveSet.get sl = true → s.amon.activityDue = false →
    let d := s.drive sl
    let stop : Int := match w.dir with | .up => min x (hi - 2 * (params k).coast) | .down => max x (lo + 2 * (params k).coast)
    (match w.dir with | .up => (d.count : Int) < stop | .down => stop < (d.count : Int)) →
    exec (.brakeTimerExpiry sl n) s =
      .next ({ s with vsense := n }.setDrive sl (({ d with waitingRun := none } : Drive).entered w k |x - d.count| (some stop)))) ∧
  (∀ (s : State) (sl : Slot) (n : Nat) (k : Kind) (id p : Nat),
    s.kindAt sl = some k → (s.drive sl).axis = .braking → (s.drive sl).brakeTimer.isSome = true →
    (s.drive sl).waitingRun = none → (s.drive sl).afterBrake = .refDone → (s.job sl).active = true →
    (s.job sl).origin = .scene id → (s.job sl).permille = some p → s.amon.activityDue = false →
    (∀ v ∈ s.pairsOf sl, ∀ b, v.bandFor sl = some b →
      crosses (s.drive sl).count (sceneCount k p (s.drive sl).span) (s.drive sl).span b = false) →
    let d := s.drive sl
    let m := (params k).margin
    let x : Int := max m (min ((d.span : Int) - m) ((p : Int) * d.span / 1000))
    let dir : Dir := if (d.count : Int) < x then .up else .down
    exec (.brakeTimerExpiry sl n) s =
      .next ((({ s with
          vsense := n, smon := { s.smon with driveSet := s.smon.driveSet.set sl false } }.setPin sl false).setJob sl
        { s.job sl with
          present := .main, requested := some x, target := some x, dir := dir, speed := .code 2, entries := [],
          firstFailure := none, outcome := none, handed := true, cause := none }).setDrive sl
        { d.atRest .idle with
          handed := some { origin := .scene, dir := dir, target := some x, speed := .code 2, secondLeg := false,
                           pulsesLeft := none } })) ∧
  (∀ (s : State) (sl : Slot) (r : Run),
    (s.drive sl).axis = .braking → (s.drive sl).brakeTimer.isSome = true → (s.drive sl).waitingRun = none →
    r.dir = (s.drive sl).dir → r.origin ≠ .learn →
    let d : Drive := { s.drive sl with handed := none }
    (s.mayDrive sl r false = true → s.smon.level = .critical ∨ s.smon.level = .unknown →
      s.takeRun sl r = (s.setDrive sl { d with run := none, afterBrake := .idle }, [.runEnded sl (.outcome .supply)])) ∧
    (s.mayDrive sl r false = false →
      s.takeRun sl r = (s.setDrive sl { d with run := some r, afterBrake := .joined }, [])))

/-- Stalls (R99 to R102, R105, R106). A stall-timer expiry is held while blanking runs, and taken when blanking expires; afterwards it is
taken at once. Taken, it turns the drive off: a job is to be relieved, a REFERENCE leg is at home with its count 0 and REFERENCED set,
the first LEARN leg at home with its count 0 and the second has its raw count. Neither is written to a retained record, since
REFERENCED is clear: the model's choice, read from R166 by inference (notes/assumptions/16.md). A stalled relief run puts the axis in FAULT, and a job with no claim left ends FAULT, or with the cause it had been
given. -/
def Obligations.StallsAndBlanking : Prop :=
  ∀ (s : State) (sl : Slot) (n : Nat) (r : Run),
    (s.drive sl).axis = .driving → (s.drive sl).run = some r → s.amon.activityDue = false →
    let d := s.drive sl
    let u : State := { s with vsense := n }
    (d.stallTimer.isSome = true → d.blankingTimer.isSome = true →
      exec (.stallTimerExpiry sl n) s = .next (u.setDrive sl { d with stallTimer := none, stallHeld := true })) ∧
    (d.blankingTimer.isSome = true → d.stallHeld = false →
      exec (.blankingTimerExpiry sl n) s = .next (u.setDrive sl { d with blankingTimer := none })) ∧
    ∀ c : Instr,
      c = .stallTimerExpiry sl n ∧ d.stallTimer.isSome = true ∧ d.blankingTimer = none ∨
        c = .blankingTimerExpiry sl n ∧ d.blankingTimer.isSome = true ∧ d.stallHeld = true →
      (r.origin = .scene ∨ r.origin = .jog ∨ r.origin = .yield → exec c s = .next (u.setDrive sl (d.braked .relief))) ∧
      (r.origin = .learn → r.secondLeg = true → exec c s = .next (u.setDrive sl (d.braked (.rawCount d.count)))) ∧
      (r.origin = .learn → r.secondLeg = false → d.referenced = false →
        ∃ t, exec c s = .next t ∧ t.drive sl = ({ d with count := 0 } : Drive).braked .secondLeg ∧ t.rcs = s.rcs ∧ t.mvc = s.mvc ∧
          t.clu.views = s.clu.views ∧ t.bus = s.bus) ∧
      (r.origin = .reference →
        ∃ t, exec c s = .next t ∧ t.drive sl = ({ d with count := 0, referenced := true } : Drive).braked .refDone ∧
          t.rcs.retained.get sl = ⟨0, true⟩ ∧ t.mvc = s.mvc ∧ t.clu.views = s.clu.views ∧ t.bus = s.bus) ∧
      (r.origin = .relief → (s.job sl).active = false →
        exec c s =
          .next ({ u with smon := { s.smon with driveSet := s.smon.driveSet.set sl false } }.setDrive sl (d.atRest .fault))) ∧
      (r.origin = .relief → (s.job sl).active = true → (s.job sl).entries = [] → s.queuedAt sl = none → s.ViewsQuiet →
        ∃ t, exec c s = .next t ∧ SamePassages s t ∧ t.drive sl = d.atRest .fault ∧ t.smon.driveSet.get sl = false ∧
          t.job sl = { Job.free with outcome := some ((s.job sl).cause.getD .fault) })

/-- Expiry of the job timer (R103): the drive goes off, and the run ends TIMEOUT at the end of the brake period; a relief run puts
the axis in FAULT, and a job with no claim left ends FAULT. -/
def Obligations.JobTimerEndsRun : Prop :=
  ∀ (s : State) (sl : Slot) (n : Nat) (r : Run),
    (s.drive sl).axis = .driving → (s.drive sl).run = some r → (s.drive sl).jobTimer.isSome = true → s.amon.activityDue = false →
    (r.origin ≠ .relief →
      exec (.jobTimerExpiry sl n) s =
        .next ({ s with vsense := n }.setDrive sl ((s.drive sl).braked (.ended .timeout)))) ∧
    (r.origin = .relief → (s.job sl).active = true → (s.job sl).entries = [] → (s.job sl).member = .noScene →
      (s.job sl).cause = none → s.queuedAt sl = none → s.ViewsQuiet →
      ∃ t, exec (.jobTimerExpiry sl n) s = .next t ∧ SamePassages s t ∧ t.drive sl = (s.drive sl).atRest .fault ∧
        t.job sl = { Job.free with outcome := some .fault } ∧ t.smon.driveSet.get sl = false ∧
        ∀ y, y ≠ sl → t.drive y = s.drive y)

/-- The completion of a calibration write (R107, R131, R165): the record holds the raw count, the latched role and the marker, the
drive the new span with DISABLED clear and REFERENCED set. In RUN, where the axis is IDLE and holds every passage its learn claimed,
with no claim waiting for one and no other axis at work, the learn ends, DONE where no cause was taken; its scene record is cleared
and its RESULT built (R120, R132). Before it, the raw count as the MVC takes it at the end of the brake period (R107, R131): from 200
to 8000 the write begins, with 25 ms and the record's marker cleared (R165); any other count leaves the axis DISABLED with span 0 and
UNREFERENCED, its retained record with it, and the learn ends LEARN_FAIL. R165 gives the three steps of a write and not their times: that
the record has its marker cleared at the beginning, keeps its former span and role meanwhile, and takes the new ones with the marker at
completion is the model's reading (notes/assumptions/27.md). -/
def Obligations.CalibrationCompletes : Prop :=
  (∀ (s : State) (sl : Slot) (n raw : Nat), s.rcs.writing.get sl = some raw → s.station ≠ .run → s.amon.activityDue = false →
    ∃ t, exec (.calibrationWriteCompletion sl n) s = .next t ∧ SamePassages s t ∧
      t.drive sl = { s.drive sl with span := raw, disabled := false, referenced := true } ∧
      t.rcs.calibration.get sl = ⟨raw, s.role, true⟩ ∧ t.rcs.writing.get sl = none ∧ t.rcs.writeTimer.get sl = none ∧
      t.rcs.retained.get sl = ⟨(s.drive sl).count, true⟩ ∧ t.mvc = s.mvc ∧
      ∀ y, y ≠ sl → t.drive y = s.drive y ∧ t.rcs.calibration.get y = s.rcs.calibration.get y) ∧
  (∀ (s : State) (sl : Slot) (n raw q : Nat) (r : Role),
    s.rcs.writing.get sl = some raw → s.station = .run → s.role = some r → (s.drive sl).axis = .idle → s.queuedAt sl = none →
    (s.job sl).active = true → (s.job sl).origin = .learn → (s.job sl).member = .active →
    (∀ e ∈ (s.job sl).entries, e.status = .held) →
    s.mvc.active =
      some { id := .learn, requester := q, learnSlot := some sl, slots := (PerSlot.all (.ended .noJob)).set sl .pending } →
    s.clu.views.length ≤ 10 → (∀ v ∈ s.pairsOf sl, v.gives sl = true ∧ v.state ≠ .ownWait ∧ v.waiting = none) →
    (∀ y, y ≠ sl → (s.job y).active = false ∧ (s.drive y).axis ≠ .driving ∧ (s.drive y).axis ≠ .holding) →
    let o : JobOutcome := (s.job sl).cause.getD .done
    ∃ t, exec (.calibrationWriteCompletion sl n) s = .next t ∧ SamePassages s t ∧
      t.drive sl = { s.drive sl with span := raw, disabled := false, referenced := true } ∧
      t.rcs.calibration.get sl = ⟨raw, s.role, true⟩ ∧ t.rcs.writing.get sl = none ∧ t.rcs.writeTimer.get sl = none ∧
      t.rcs.retained.get sl = ⟨(s.drive sl).count, true⟩ ∧
      (∀ y, y ≠ sl → t.drive y = s.drive y ∧ t.rcs.calibration.get y = s.rcs.calibration.get y) ∧
      t.job sl = { Job.free with outcome := some o } ∧ t.mvc.active = none ∧
      encode (roleCode r)
          (.result
            { id := 14, requester := q, outcomes := (PerSlot.all 18).set sl (outcomeCode o)
              reasons := (PerSlot.all 255).set sl (reasonByte o) }) ∈ t.bus.general ++ t.mvc.outgoing) ∧
  (∀ (s : State) (sl : Slot) (n raw : Nat),
    (s.drive sl).axis = .braking → (s.drive sl).brakeTimer.isSome = true → (s.drive sl).waitingRun = none →
    (s.drive sl).afterBrake = .rawCount raw → (s.job sl).active = true → s.amon.activityDue = false → 200 ≤ raw → raw ≤ 8000 →
    exec (.brakeTimerExpiry sl n) s =
      .next ({ s with
        vsense := n, smon := { s.smon with driveSet := s.smon.driveSet.set sl false }
        rcs := { s.rcs with
          calibration := s.rcs.calibration.set sl { s.rcs.calibration.get sl with marker := false }
          writing := s.rcs.writing.set sl (some raw), writeTimer := s.rcs.writeTimer.set sl (some 25) } }.setDrive sl
        ((s.drive sl).atRest .idle))) ∧
  (∀ (s : State) (sl : Slot) (n raw q : Nat) (r : Role),
    s.station = .run → s.role = some r → (s.drive sl).axis = .braking → (s.drive sl).brakeTimer.isSome = true →
    (s.drive sl).waitingRun = none → (s.drive sl).afterBrake = .rawCount raw → raw < 200 ∨ 8000 < raw → s.queuedAt sl = none →
    (s.job sl).active = true → (s.job sl).origin = .learn → (s.job sl).member = .active →
    (∀ e ∈ (s.job sl).entries, e.status = .held) →
    s.mvc.active =
      some { id := .learn, requester := q, learnSlot := some sl, slots := (PerSlot.all (.ended .noJob)).set sl .pending } →
    s.clu.views.length ≤ 10 → (∀ v ∈ s.pairsOf sl, v.gives sl = true ∧ v.state ≠ .ownWait ∧ v.waiting = none) →
    (∀ y, y ≠ sl → (s.job y).active = false ∧ (s.drive y).axis ≠ .driving ∧ (s.drive y).axis ≠ .holding) →
    ∃ t, exec (.brakeTimerExpiry sl n) s = .next t ∧ SamePassages s t ∧
      t.drive sl = { (s.drive sl).atRest .idle with span := 0, disabled := true, referenced := false } ∧
      t.rcs.retained.get sl = ⟨(s.drive sl).count, false⟩ ∧ t.rcs.calibration = s.rcs.calibration ∧ t.rcs.writing = s.rcs.writing ∧
      (∀ y, y ≠ sl → t.drive y = s.drive y) ∧ t.job sl = { Job.free with outcome := some .learnFail } ∧ t.mvc.active = none ∧
      encode (roleCode r)
          (.result { id := 14, requester := q, outcomes := (PerSlot.all 18).set sl 17, reasons := .all 255 })
        ∈ t.bus.general ++ t.mvc.outgoing)

/-! ### Supply, activity and inputs (chapters 7 and 8) -/

/-- A supply sample (R135, R136): the level from UNKNOWN, OK or LOW by the thresholds 9.0, 10.5 and 11.0 V, and three samples in a
row at or above 9.5 V to leave CRITICAL, whatever has the sample taken. -/
def Obligations.SampleSetsLevel : Prop :=
  (∀ (s : State) (period : Nat), s.smon.level = .critical → s.smon.recovery < 3 →
    let t := (s.takeSample period).1
    let v := min s.vsense 255
    (v < 95 → t.smon.level = .critical ∧ t.smon.recovery = 0) ∧
    (95 ≤ v → s.smon.recovery < 2 → t.smon.level = .critical ∧ t.smon.recovery = s.smon.recovery + 1) ∧
    (95 ≤ v → s.smon.recovery = 2 → t.smon.recovery = 0 ∧ t.smon.level = (if 110 ≤ v then .ok else .low))) ∧
  ∀ (s : State) (n : Nat), s.smon.timer.isSome = true →
    ∃ t, exec (.sampleTimerExpiry n) s = .next t ∧ SamePassages s t ∧
      (let v := min n 255
       (s.smon.level ≠ .critical →
         t.smon.recovery = 0 ∧
         t.smon.level =
           (if v < 90 then .critical
            else if v < 105 then .low
            else if v < 110 ∧ s.smon.level = .low then .low
            else .ok)) ∧
       (s.smon.level = .critical →
         (v < 95 → t.smon.level = .critical ∧ t.smon.recovery = 0) ∧
         (95 ≤ v → s.smon.recovery < 2 → t.smon.level = .critical ∧ t.smon.recovery = s.smon.recovery + 1) ∧
         (95 ≤ v → s.smon.recovery = 2 → t.smon.recovery = 0 ∧ t.smon.level = (if 110 ≤ v then .ok else .low)))) ∧
      (s.RecoverySound → t.smon.level ≠ .critical → t.smon.recovery = 0)

/-- Entry into CRITICAL (R98, R137): no axis is left DRIVING, and a station whose drives were sound has every output off. The MVC then
asks every active job to end SUPPLY (R127); that a scene or learn which waits to start takes the cause, and a jog that waits is dropped,
is the model's choice (notes/assumptions/8.md). Whatever the cause, the end requests for several jobs are all taken before any job ends:
a job has its cause by then, a HOLDING axis is IDLE and one in FAULT stays there, a drive that the ADU has turned off ends its run
with the cause at the end of the brake period (R92), and a calibration write goes on (R137). For a cause other than CRITICAL that order
is the model's choice (notes/assumptions/29.md). -/
def Obligations.CriticalStopsDrives : Prop :=
  (∀ (s : State) (n : Nat), s.smon.timer.isSome = true → s.smon.level ≠ .critical → n < 90 →
    ∃ t, exec (.sampleTimerExpiry n) s = .next t ∧ SamePassages s t ∧ t.smon.level = .critical ∧
      (∀ sl : Slot, (t.drive sl).axis ≠ .driving) ∧
      (s.DrivesSound → ∀ sl : Slot, (t.drive sl).duty = 0 ∧ (t.drive sl).brake = true)) ∧
  (∀ (s : State) (sl : Slot),
    (asksEnd s.supplyCritical.2 sl .supply ↔ (s.job sl).active = true) ∧
    ∀ q, s.queuedAt sl = some q →
      s.supplyCritical.1.queuedAt sl =
        (match q.origin with
         | .jog _ => none
         | .scene _ _ _ _ | .learn => some { q with cause := some (q.cause.getD .supply) })) ∧
  (∀ (s : State) (sls : List Slot) (o : JobOutcome) (sl : Slot),
    let e := handle (.endRequests sls o) s
    let d := s.drive sl
    let ends := Report.finishJob sl o ∈ e.2
    (sl ∉ sls → e.1.job sl = s.job sl ∧ e.1.drive sl = d) ∧
    (sl ∈ sls → (s.job sl).active = true → (s.job sl).cause = none →
      let marked := e.1.job sl = { s.job sl with cause := some o }
      ((s.rcs.writing.get sl).isSome = true → marked ∧ e.1.drive sl = d) ∧
      (s.rcs.writing.get sl = none →
        (d.handed.isSome = true → marked ∧ e.1.drive sl = { d with handed := none } ∧ ends) ∧
        (d.handed = none → (s.job sl).handed = false → marked ∧ e.1.drive sl = d ∧ ends) ∧
        (d.handed = none → (s.job sl).handed = true →
          (d.axis = .holding → marked ∧ e.1.drive sl = d.atRest .idle ∧ ends) ∧
          (d.axis = .fault → marked ∧ e.1.drive sl = d ∧ ends) ∧
          (d.axis = .driving → marked ∧ e.1.drive sl = d.braked (.ended o)) ∧
          (d.axis = .braking → d.waitingRun = none → d.afterBrake = .retest →
            marked ∧ e.1.drive sl = { d with afterBrake := .ended o })))))

/-- Expiry of the quiet timer in ACTIVE (R141): it restarts while an axis is DRIVING, BRAKING or HOLDING, and otherwise the mode is
QUIET and the timer stops; no other timer changes. An activity event in QUIET, such as a STOP taken that is not for this station,
brings ACTIVE back with every fast period and a STATUS at once (R140, R143). -/
def Obligations.QuietTimerExpiry : Prop :=
  (∀ s : State, s.amon.quiet.isSome = true → s.amon.mode = .active →
    let moving := ∃ sl : Slot, (s.drive sl).axis = .driving ∨ (s.drive sl).axis = .braking ∨ (s.drive sl).axis = .holding
    (moving → exec .quietTimerExpiry s = .next { s with amon := { s.amon with quiet := some 30000 } }) ∧
    (¬moving → exec .quietTimerExpiry s = .next { s with amon := { s.amon with mode := .quiet, quiet := none } })) ∧
  (∀ (s : State) (n : Nat) (f : Frame) (rest : List RxFrame) (r : Role) (scope : BitVec 6),
    TakesFrame s kStop false f rest → s.role = some r → payload f = .stop scope → scope.getLsbD (roleCode r) = false →
    s.amon.mode = .quiet → s.bus.busOff = none → s.bus.attempt = none →
    ∃ t g c, exec (.stopTaken n) s = .next t ∧ SamePassages (s.leaving rest) t ∧
      t.amon = { mode := .active, quiet := some 30000, activityDue := false } ∧
      t.bus.status = some g ∧ g = encode (roleCode r) (.status c) ∧ c.mode = .active ∧ c.seq = s.pmon.seq ∧
      t.pmon = { s.pmon with seq := (s.pmon.seq + 1) % 16, statusTimer := some 20 } ∧
      t.smon = (if s.smon.driveSet = .all false then { s.smon with timer := some 200 } else s.smon) ∧
      t.liu = { s.liu with occupancyTimer := some 50 } ∧ t.mvc = s.mvc ∧ t.adu = s.adu ∧ t.clu = s.clu)

/-- A sample of the switches (R144, R121): each input keeps its newest three raw samples and its state follows three that agree,
and the jog state of each slot is that of its two debounced switches. A press of ONE debounced in RUN puts the one-touch SCENE of the
role on the transmit side, at once where nothing waits before it (R16). A jog state that becomes UP or DOWN on a slot with no other
change starts a jog at code 2 to the far end of the base envelope, where no band lies across and R122 does not refuse it (R33, R121,
R122); one that becomes NEUTRAL ends its jog USER. A jog that is not refused asks the active scene's jobs and the job on its axis, and no
other, to end USER (R122). That the press of ONE comes before the jogs of one sample, that two switches of one slot debounced in one
sample make one change of its jog state, and that a jog already at its target takes direction down, are the model's choice
(notes/assumptions/35.md and 10.md). -/
def Obligations.SwitchSampleDebounces : Prop :=
  (∀ (s : State) (pins : SwitchPins) (n : Nat), s.station = .start ∨ s.station = .sync ∨ s.station = .run →
    let next (d : Debounce) (level : Bool) : Debounce :=
      let xs := ((!level) :: d.samples).take 3
      ⟨if xs = [!level, !level, !level] then !level else d.stable, xs⟩
    let up : PerSlot Debounce := ⟨next s.liu.up.s0 pins.jup0, next s.liu.up.s1 pins.jup1, next s.liu.up.s2 pins.jup2⟩
    let down : PerSlot Debounce := ⟨next s.liu.down.s0 pins.jdn0, next s.liu.down.s1 pins.jdn1, next s.liu.down.s2 pins.jdn2⟩
    let jog (a b : Debounce) : JogState :=
      if a.stable = true ∧ b.stable = false then .up else if a.stable = false ∧ b.stable = true then .down else .neutral
    ∃ t, exec (.switchSample pins n) s = .next t ∧
      SamePassages
        { s with
          liu := { s.liu with up := up, down := down, one := next s.liu.one pins.one }
          mvc := { s.mvc with jogs := ⟨jog up.s0 down.s0, jog up.s1 down.s1, jog up.s2 down.s2⟩ } } t ∧
      ∀ (r : Role) (id : Nat) (scope : BitVec 6),
        s.station = .run → s.role = some r → oneTouch r = some (id, scope) → s.liu.one.stable = false →
        (next s.liu.one pins.one).stable = true → s.bus.busOff = none → s.clu.waiting = [] → s.mvc.outgoing = [] →
        s.bus.general.length < 5 → encode (roleCode r) (.scene id scope) ∈ t.bus.general) ∧
  (∀ (s : State) (pins : SwitchPins) (n : Nat) (sl : Slot) (k : Kind) (dir : Dir),
    let l := s.liu.sampleSwitches pins
    let x : Int :=
      match dir with
      | .up => max (s.drive sl).count ((s.drive sl).span - (params k).margin)
      | .down => min (s.drive sl).count (params k).margin
    let go : Dir := if ((s.drive sl).count : Int) < x then .up else .down
    s.station = .run → s.kindAt sl = some k → s.mvc.jogs.get sl = .neutral →
    l.jogOf sl = (match dir with | .up => .up | .down => .down) → (∀ y, y ≠ sl → l.jogOf y = s.mvc.jogs.get y) →
    s.smon.level = .ok ∨ s.smon.level = .low → (k = .tip ∨ k = .stow → s.pmon.gateway.speed = .still) →
    s.rcs.writing.get sl = none → (s.drive sl).hasRange = true → (∀ y, (s.job y).active = false ∧ s.queuedAt y = none) →
    (∀ v ∈ s.pairsOf sl, ∀ b, v.bandFor sl = some b → crosses (s.drive sl).count x (s.drive sl).span b = false) →
    ∃ t, exec (.switchSample pins n) s = .next t ∧
      t.job sl =
        { Job.free with
          active := true, origin := .jog, requested := some x, target := some x, dir := go, speed := .code 2, standing := .jog,
          handed := true } ∧
      t.mvc.pins.get sl = false ∧
      t.drive sl =
        { s.drive sl with
          handed := some { origin := .jog, dir := go, target := some x, speed := .code 2, secondLeg := false,
                           pulsesLeft := none } } ∧
      ∀ y, y ≠ sl → t.job y = s.job y ∧ t.drive y = s.drive y) ∧
  (∀ (s : State) (sl : Slot) (k : Kind) (dir : Dir), s.kindAt sl = some k →
    let refused :=
      s.station ≠ .run ∨ s.smon.level = .critical ∨ s.smon.level = .unknown ∨
        ((k = .tip ∨ k = .stow) ∧ s.pmon.gateway.speed ≠ .still) ∨ (s.rcs.writing.get sl).isSome = true
    (refused → s.jogRequest sl dir = (s, [])) ∧
    (¬refused →
      Report.replaceJob sl (.jog dir) .user ∈ (s.jogRequest sl dir).2 ∧
        ∀ y, asksEnd (s.jogRequest sl dir).2 y .user ↔
          (s.job y).active = true ∧ ((s.job y).member = .active ∨ y = sl))) ∧
  (∀ (s : State) (sl : Slot), s.mvc.jogs.get sl ≠ .neutral →
    (s.jogChange sl .neutral).2 =
      if (s.job sl).active = true ∧ (s.job sl).origin = .jog then [.endRequest sl .user] else [])

/-- A sample of the occupancy inputs (R144, R145): occupied where the mat or the buckle reads low; the debounced state follows two
samples that agree; and where it does not change, only the samples and the restarted timer do. Where the station becomes occupied
while every job drives, a SCENE job whose target lies outside the seated range ends OCCUPIED; and which jobs, driving or not, it ends
is as R125 names them. -/
def Obligations.OccupancySampleDebounces : Prop :=
  (∀ (s : State) (pins : OccupancyPins) (n : Nat), s.liu.occupancyTimer.isSome = true → s.amon.activityDue = false →
    let raw := !pins.mat || !pins.buckle
    let xs := (raw :: s.liu.occupancy.samples).take 2
    let next : Debounce := ⟨if xs = [raw, raw] then raw else s.liu.occupancy.stable, xs⟩
    ∃ t, exec (.occupancySample pins n) s = .next t ∧
      SamePassages { s with liu := { s.liu with occupancy := next } } t ∧
      (next.stable = s.liu.occupancy.stable →
        t =
          { s with
            vsense := n
            liu := { s.liu with occupancy := next, occupancyTimer := some (if s.amon.mode = .active then 50 else 500) } }) ∧
      (∀ (sl : Slot) (k : Kind) (p : Nat), next.stable = true → s.liu.occupancy.stable = false → s.AllDrive → (s.job sl).active = true →
        s.kindAt sl = some k → k ≠ .slide → (s.job sl).origin.isScene = true → (s.job sl).permille = some p →
        (params k).seated < p → t.EndsWith sl .occupied)) ∧
  (∀ (s : State) (sl : Slot) (k : Kind), s.kindAt sl = some k →
    (asksEnd s.endOccupied.2 sl .occupied ↔
      (s.job sl).active = true ∧
        ((s.job sl).origin.isScene = true ∧ k ≠ .slide ∧ (∃ p, (s.job sl).permille = some p ∧ (params k).seated < p) ∨
          (∃ q x, (s.job sl).origin = .yield q ∧ (s.job sl).requested = some x ∧ k ≠ .slide ∧
            ((params k).seated : Int) < x * 1000 / (s.drive sl).span) ∨
          (s.job sl).origin = .learn)))

/-! ### Position arithmetic (chapter 2) -/

/-- The count range of an axis (R21, R22, R24): it holds the count, lies within the base, keeps the static interval of every count
in it off each band that the axis stands below or above and does not hold, and under the seated condition goes no further up than
the seated limit or the count. -/
def Obligations.RangeKeepsCountAndBands : Prop :=
  ∀ (k : Kind) (c S : Int) (cuts : List Band) (seated : Bool), 0 < S → 0 ≤ c →
    let r := countRange k c S cuts seated
    let m := (params k).margin
    r.1 ≤ c ∧ c ≤ r.2 ∧ min c m ≤ r.1 ∧ r.2 ≤ max c (S - m) ∧
      (∀ b ∈ cuts, b.x1 ≤ b.x2 →
        ((staticInterval c S).high < b.x1 → ∀ x, x ≤ r.2 → (staticInterval x S).high ≤ (b.x1 : Int) - 1) ∧
        ((b.x2 : Int) < (staticInterval c S).low → ∀ x, r.1 ≤ x → (b.x2 : Int) + 1 ≤ (staticInterval x S).low)) ∧
      (seated = true → k ≠ .slide → r.2 ≤ max c (((params k).seated : Int) * S / 1000))

/-- The setpoint of a driven job (R28) lies from its creep speed to its cruise speed, and not above twice creep while the supply is
LOW; and the target of a yield (R29) leaves the band by 20 permille and by one coast allowance beyond the cut of R22. -/
def Obligations.SetpointAndYieldBounds : Prop :=
  (∀ (k : Kind) (code : Nat) (d prev : Int) (low : Bool),
    (params k).creep ≤ setpoint k code d prev low ∧ setpoint k code d prev low ≤ cruise k code ∧
      (low = true → setpoint k code d prev low ≤ 2 * (params k).creep)) ∧
  (∀ (k : Kind) (b : Band) (c S t : Int), 0 < S → yieldTarget k b c S = some t →
    (exitSide b (norm c S) = .downward →
      (staticInterval t S).high ≤ (b.x1 : Int) - 20 ∧ t + (params k).coast ≤ (((b.x1 : Int) - 1) * S) / 1000) ∧
    (exitSide b (norm c S) = .upward →
      (b.x2 : Int) + 20 ≤ (staticInterval t S).low ∧ ((b.x2 : Int) + 1) * S ≤ 1000 * (t - (params k).coast)))

/-! ### Invariants -/

/-- The machine right after reset keeps every invariant of this model. -/
def Obligations.ResetMeetsInvariants : Prop :=
  State.reset.DrivesSound ∧ State.reset.SupplyHolds ∧ State.reset.RecoverySound ∧ State.reset.EnvelopesSound ∧
    State.reset.BusBounded ∧ State.reset.PeersSound ∧ State.reset.StoresSound

/-- Every step keeps the drives sound (R28, R86, R91, R96, R97, R99, R103): duty in 0..1000, the setpoint never below 0, and outside
DRIVING duty and setpoint 0, the brake on, SEEK with LOCK clear, and the job, stall and blanking timers stopped. At entry into STANDSTILL
that of the loop, LOCK and the setpoint rests on the model's choice (notes/assumptions/51.md). -/
def Obligations.StepKeepsDrivesSound : Prop := ∀ s t : State, s.DrivesSound → step s = .next t → t.DrivesSound

/-- Every step keeps the supply rules (R98, R136): no axis is DRIVING while the level is CRITICAL or UNKNOWN, and the recovery
counter is below 3, and 0 outside CRITICAL. -/
def Obligations.StepKeepsSupplyRules : Prop :=
  ∀ s t : State, s.SupplyHolds ∧ s.RecoverySound → step s = .next t → t.SupplyHolds ∧ t.RecoverySound

/-- Every step keeps the capacities of the bus interface and of the outgoing list (R111, R147, R149 to R151), and the bounds of the
peer records (R64, R66 to R69, R74). -/
def Obligations.StepKeepsQueuesAndPeers : Prop :=
  ∀ s t : State, s.BusBounded ∧ s.PeersSound → step s = .next t → t.BusBounded ∧ t.PeersSound

/-- Every step from sound drives keeps the envelopes sound, which hold their counts and keep off the bands whose passage the axes do
not hold (R21, R22, R25), and the two stores true to the axes (R87, R88, R165, R166). After it the occupied interval of every axis has
the bounds of R20, and keeps out of each band that its axis stands outside and does not hold (R36). Of the model's own choices
it rests on four: an envelope is a count range from the first control interval after REFERENCED is set (notes/assumptions/16.md), a
calibration record stands without its marker while its write is in progress (notes/assumptions/27.md), in STANDSTILL the envelope follows
a pulse or a completed write alone (notes/assumptions/22.md), and the retained records stand through a loss of the always-on
supply (notes/assumptions/50.md). -/
def Obligations.StepKeepsEnvelopesAndStores : Prop :=
  ∀ s t : State, s.DrivesSound ∧ s.EnvelopesSound ∧ s.StoresSound → step s = .next t →
    t.EnvelopesSound ∧ t.StoresSound ∧ ∀ sl : Slot, (t.kindAt sl).isSome = true → t.IntervalSound sl ∧ t.KeepsOut sl
end

