-- ==== Sys2Proof/Laws/State.lean ====
section
/-! SUPPORT. One lemma for each field and each update of the state: what an update leaves alone, and what it sets. All hold by
computation, so that no later proof unfolds a record update. -/

namespace Sys2Proof.Machine

/-! ### Slots -/

@[simp] theorem PerSlot.get_set {α : Type} (x : PerSlot α) (a b : Slot) (v : α) :
    (x.set a v).get b = if a = b then v else x.get b := by cases a <;> cases b <;> rfl

@[simp] theorem PerSlot.get_tabulate {α : Type} (f : Slot → α) (sl : Slot) : (PerSlot.tabulate f).get sl = f sl := by
  cases sl <;> rfl

@[simp] theorem PerSlot.get_all {α : Type} (v : α) (sl : Slot) : (PerSlot.all v).get sl = v := by cases sl <;> rfl

/-! ### setDrive -/

@[simp] theorem State.setDrive_station (s : State) (sl : Slot) (d : Drive) : (s.setDrive sl d).station = s.station := rfl
@[simp] theorem State.setDrive_role (s : State) (sl : Slot) (d : Drive) : (s.setDrive sl d).role = s.role := rfl
@[simp] theorem State.setDrive_syncTimer (s : State) (sl : Slot) (d : Drive) : (s.setDrive sl d).syncTimer = s.syncTimer := rfl
@[simp] theorem State.setDrive_vsense (s : State) (sl : Slot) (d : Drive) : (s.setDrive sl d).vsense = s.vsense := rfl
@[simp] theorem State.setDrive_clu (s : State) (sl : Slot) (d : Drive) : (s.setDrive sl d).clu = s.clu := rfl
@[simp] theorem State.setDrive_pmon (s : State) (sl : Slot) (d : Drive) : (s.setDrive sl d).pmon = s.pmon := rfl
@[simp] theorem State.setDrive_mvc (s : State) (sl : Slot) (d : Drive) : (s.setDrive sl d).mvc = s.mvc := rfl
@[simp] theorem State.setDrive_smon (s : State) (sl : Slot) (d : Drive) : (s.setDrive sl d).smon = s.smon := rfl
@[simp] theorem State.setDrive_amon (s : State) (sl : Slot) (d : Drive) : (s.setDrive sl d).amon = s.amon := rfl
@[simp] theorem State.setDrive_liu (s : State) (sl : Slot) (d : Drive) : (s.setDrive sl d).liu = s.liu := rfl
@[simp] theorem State.setDrive_bus (s : State) (sl : Slot) (d : Drive) : (s.setDrive sl d).bus = s.bus := rfl
@[simp] theorem State.setDrive_rcs (s : State) (sl : Slot) (d : Drive) : (s.setDrive sl d).rcs = s.rcs := rfl
@[simp] theorem State.setDrive_pending (s : State) (sl : Slot) (d : Drive) : (s.setDrive sl d).pending = s.pending := rfl

/-! ### setJob -/

@[simp] theorem State.setJob_station (s : State) (sl : Slot) (j : Job) : (s.setJob sl j).station = s.station := rfl
@[simp] theorem State.setJob_role (s : State) (sl : Slot) (j : Job) : (s.setJob sl j).role = s.role := rfl
@[simp] theorem State.setJob_syncTimer (s : State) (sl : Slot) (j : Job) : (s.setJob sl j).syncTimer = s.syncTimer := rfl
@[simp] theorem State.setJob_vsense (s : State) (sl : Slot) (j : Job) : (s.setJob sl j).vsense = s.vsense := rfl
@[simp] theorem State.setJob_clu (s : State) (sl : Slot) (j : Job) : (s.setJob sl j).clu = s.clu := rfl
@[simp] theorem State.setJob_pmon (s : State) (sl : Slot) (j : Job) : (s.setJob sl j).pmon = s.pmon := rfl
@[simp] theorem State.setJob_adu (s : State) (sl : Slot) (j : Job) : (s.setJob sl j).adu = s.adu := rfl
@[simp] theorem State.setJob_smon (s : State) (sl : Slot) (j : Job) : (s.setJob sl j).smon = s.smon := rfl
@[simp] theorem State.setJob_amon (s : State) (sl : Slot) (j : Job) : (s.setJob sl j).amon = s.amon := rfl
@[simp] theorem State.setJob_liu (s : State) (sl : Slot) (j : Job) : (s.setJob sl j).liu = s.liu := rfl
@[simp] theorem State.setJob_bus (s : State) (sl : Slot) (j : Job) : (s.setJob sl j).bus = s.bus := rfl
@[simp] theorem State.setJob_rcs (s : State) (sl : Slot) (j : Job) : (s.setJob sl j).rcs = s.rcs := rfl
@[simp] theorem State.setJob_pending (s : State) (sl : Slot) (j : Job) : (s.setJob sl j).pending = s.pending := rfl

/-! ### setQueued -/

@[simp] theorem State.setQueued_station (s : State) (sl : Slot) (q : Option QueuedStart) : (s.setQueued sl q).station = s.station := rfl
@[simp] theorem State.setQueued_role (s : State) (sl : Slot) (q : Option QueuedStart) : (s.setQueued sl q).role = s.role := rfl
@[simp] theorem State.setQueued_syncTimer (s : State) (sl : Slot) (q : Option QueuedStart) : (s.setQueued sl q).syncTimer = s.syncTimer := rfl
@[simp] theorem State.setQueued_vsense (s : State) (sl : Slot) (q : Option QueuedStart) : (s.setQueued sl q).vsense = s.vsense := rfl
@[simp] theorem State.setQueued_clu (s : State) (sl : Slot) (q : Option QueuedStart) : (s.setQueued sl q).clu = s.clu := rfl
@[simp] theorem State.setQueued_pmon (s : State) (sl : Slot) (q : Option QueuedStart) : (s.setQueued sl q).pmon = s.pmon := rfl
@[simp] theorem State.setQueued_adu (s : State) (sl : Slot) (q : Option QueuedStart) : (s.setQueued sl q).adu = s.adu := rfl
@[simp] theorem State.setQueued_smon (s : State) (sl : Slot) (q : Option QueuedStart) : (s.setQueued sl q).smon = s.smon := rfl
@[simp] theorem State.setQueued_amon (s : State) (sl : Slot) (q : Option QueuedStart) : (s.setQueued sl q).amon = s.amon := rfl
@[simp] theorem State.setQueued_liu (s : State) (sl : Slot) (q : Option QueuedStart) : (s.setQueued sl q).liu = s.liu := rfl
@[simp] theorem State.setQueued_bus (s : State) (sl : Slot) (q : Option QueuedStart) : (s.setQueued sl q).bus = s.bus := rfl
@[simp] theorem State.setQueued_rcs (s : State) (sl : Slot) (q : Option QueuedStart) : (s.setQueued sl q).rcs = s.rcs := rfl
@[simp] theorem State.setQueued_pending (s : State) (sl : Slot) (q : Option QueuedStart) : (s.setQueued sl q).pending = s.pending := rfl

/-! ### setPin -/

@[simp] theorem State.setPin_station (s : State) (sl : Slot) (b : Bool) : (s.setPin sl b).station = s.station := rfl
@[simp] theorem State.setPin_role (s : State) (sl : Slot) (b : Bool) : (s.setPin sl b).role = s.role := rfl
@[simp] theorem State.setPin_syncTimer (s : State) (sl : Slot) (b : Bool) : (s.setPin sl b).syncTimer = s.syncTimer := rfl
@[simp] theorem State.setPin_vsense (s : State) (sl : Slot) (b : Bool) : (s.setPin sl b).vsense = s.vsense := rfl
@[simp] theorem State.setPin_clu (s : State) (sl : Slot) (b : Bool) : (s.setPin sl b).clu = s.clu := rfl
@[simp] theorem State.setPin_pmon (s : State) (sl : Slot) (b : Bool) : (s.setPin sl b).pmon = s.pmon := rfl
@[simp] theorem State.setPin_adu (s : State) (sl : Slot) (b : Bool) : (s.setPin sl b).adu = s.adu := rfl
@[simp] theorem State.setPin_smon (s : State) (sl : Slot) (b : Bool) : (s.setPin sl b).smon = s.smon := rfl
@[simp] theorem State.setPin_amon (s : State) (sl : Slot) (b : Bool) : (s.setPin sl b).amon = s.amon := rfl
@[simp] theorem State.setPin_liu (s : State) (sl : Slot) (b : Bool) : (s.setPin sl b).liu = s.liu := rfl
@[simp] theorem State.setPin_bus (s : State) (sl : Slot) (b : Bool) : (s.setPin sl b).bus = s.bus := rfl
@[simp] theorem State.setPin_rcs (s : State) (sl : Slot) (b : Bool) : (s.setPin sl b).rcs = s.rcs := rfl
@[simp] theorem State.setPin_pending (s : State) (sl : Slot) (b : Bool) : (s.setPin sl b).pending = s.pending := rfl

/-! ### setBus -/

@[simp] theorem State.setBus_station (s : State) (b : Bif) : (s.setBus b).station = s.station := rfl
@[simp] theorem State.setBus_role (s : State) (b : Bif) : (s.setBus b).role = s.role := rfl
@[simp] theorem State.setBus_syncTimer (s : State) (b : Bif) : (s.setBus b).syncTimer = s.syncTimer := rfl
@[simp] theorem State.setBus_vsense (s : State) (b : Bif) : (s.setBus b).vsense = s.vsense := rfl
@[simp] theorem State.setBus_clu (s : State) (b : Bif) : (s.setBus b).clu = s.clu := rfl
@[simp] theorem State.setBus_pmon (s : State) (b : Bif) : (s.setBus b).pmon = s.pmon := rfl
@[simp] theorem State.setBus_adu (s : State) (b : Bif) : (s.setBus b).adu = s.adu := rfl
@[simp] theorem State.setBus_mvc (s : State) (b : Bif) : (s.setBus b).mvc = s.mvc := rfl
@[simp] theorem State.setBus_smon (s : State) (b : Bif) : (s.setBus b).smon = s.smon := rfl
@[simp] theorem State.setBus_amon (s : State) (b : Bif) : (s.setBus b).amon = s.amon := rfl
@[simp] theorem State.setBus_liu (s : State) (b : Bif) : (s.setBus b).liu = s.liu := rfl
@[simp] theorem State.setBus_rcs (s : State) (b : Bif) : (s.setBus b).rcs = s.rcs := rfl
@[simp] theorem State.setBus_pending (s : State) (b : Bif) : (s.setBus b).pending = s.pending := rfl

/-! ### setEnvelope -/

@[simp] theorem State.setEnvelope_station (s : State) (sl : Slot) (e : Envelope) : (s.setEnvelope sl e).station = s.station := rfl
@[simp] theorem State.setEnvelope_role (s : State) (sl : Slot) (e : Envelope) : (s.setEnvelope sl e).role = s.role := rfl
@[simp] theorem State.setEnvelope_syncTimer (s : State) (sl : Slot) (e : Envelope) : (s.setEnvelope sl e).syncTimer = s.syncTimer := rfl
@[simp] theorem State.setEnvelope_vsense (s : State) (sl : Slot) (e : Envelope) : (s.setEnvelope sl e).vsense = s.vsense := rfl
@[simp] theorem State.setEnvelope_pmon (s : State) (sl : Slot) (e : Envelope) : (s.setEnvelope sl e).pmon = s.pmon := rfl
@[simp] theorem State.setEnvelope_adu (s : State) (sl : Slot) (e : Envelope) : (s.setEnvelope sl e).adu = s.adu := rfl
@[simp] theorem State.setEnvelope_mvc (s : State) (sl : Slot) (e : Envelope) : (s.setEnvelope sl e).mvc = s.mvc := rfl
@[simp] theorem State.setEnvelope_smon (s : State) (sl : Slot) (e : Envelope) : (s.setEnvelope sl e).smon = s.smon := rfl
@[simp] theorem State.setEnvelope_amon (s : State) (sl : Slot) (e : Envelope) : (s.setEnvelope sl e).amon = s.amon := rfl
@[simp] theorem State.setEnvelope_liu (s : State) (sl : Slot) (e : Envelope) : (s.setEnvelope sl e).liu = s.liu := rfl
@[simp] theorem State.setEnvelope_bus (s : State) (sl : Slot) (e : Envelope) : (s.setEnvelope sl e).bus = s.bus := rfl
@[simp] theorem State.setEnvelope_rcs (s : State) (sl : Slot) (e : Envelope) : (s.setEnvelope sl e).rcs = s.rcs := rfl
@[simp] theorem State.setEnvelope_pending (s : State) (sl : Slot) (e : Envelope) : (s.setEnvelope sl e).pending = s.pending := rfl

/-! ### withSense -/

@[simp] theorem State.withSense_station (s : State) (v : Nat) : (s.withSense v).station = s.station := rfl
@[simp] theorem State.withSense_role (s : State) (v : Nat) : (s.withSense v).role = s.role := rfl
@[simp] theorem State.withSense_syncTimer (s : State) (v : Nat) : (s.withSense v).syncTimer = s.syncTimer := rfl
@[simp] theorem State.withSense_clu (s : State) (v : Nat) : (s.withSense v).clu = s.clu := rfl
@[simp] theorem State.withSense_pmon (s : State) (v : Nat) : (s.withSense v).pmon = s.pmon := rfl
@[simp] theorem State.withSense_adu (s : State) (v : Nat) : (s.withSense v).adu = s.adu := rfl
@[simp] theorem State.withSense_mvc (s : State) (v : Nat) : (s.withSense v).mvc = s.mvc := rfl
@[simp] theorem State.withSense_smon (s : State) (v : Nat) : (s.withSense v).smon = s.smon := rfl
@[simp] theorem State.withSense_amon (s : State) (v : Nat) : (s.withSense v).amon = s.amon := rfl
@[simp] theorem State.withSense_liu (s : State) (v : Nat) : (s.withSense v).liu = s.liu := rfl
@[simp] theorem State.withSense_bus (s : State) (v : Nat) : (s.withSense v).bus = s.bus := rfl
@[simp] theorem State.withSense_rcs (s : State) (v : Nat) : (s.withSense v).rcs = s.rcs := rfl
@[simp] theorem State.withSense_pending (s : State) (v : Nat) : (s.withSense v).pending = s.pending := rfl

/-! ### writeRetained -/

@[simp] theorem State.writeRetained_station (s : State) (sl : Slot) : (s.writeRetained sl).station = s.station := rfl
@[simp] theorem State.writeRetained_role (s : State) (sl : Slot) : (s.writeRetained sl).role = s.role := rfl
@[simp] theorem State.writeRetained_syncTimer (s : State) (sl : Slot) : (s.writeRetained sl).syncTimer = s.syncTimer := rfl
@[simp] theorem State.writeRetained_vsense (s : State) (sl : Slot) : (s.writeRetained sl).vsense = s.vsense := rfl
@[simp] theorem State.writeRetained_clu (s : State) (sl : Slot) : (s.writeRetained sl).clu = s.clu := rfl
@[simp] theorem State.writeRetained_pmon (s : State) (sl : Slot) : (s.writeRetained sl).pmon = s.pmon := rfl
@[simp] theorem State.writeRetained_adu (s : State) (sl : Slot) : (s.writeRetained sl).adu = s.adu := rfl
@[simp] theorem State.writeRetained_mvc (s : State) (sl : Slot) : (s.writeRetained sl).mvc = s.mvc := rfl
@[simp] theorem State.writeRetained_smon (s : State) (sl : Slot) : (s.writeRetained sl).smon = s.smon := rfl
@[simp] theorem State.writeRetained_amon (s : State) (sl : Slot) : (s.writeRetained sl).amon = s.amon := rfl
@[simp] theorem State.writeRetained_liu (s : State) (sl : Slot) : (s.writeRetained sl).liu = s.liu := rfl
@[simp] theorem State.writeRetained_bus (s : State) (sl : Slot) : (s.writeRetained sl).bus = s.bus := rfl
@[simp] theorem State.writeRetained_pending (s : State) (sl : Slot) : (s.writeRetained sl).pending = s.pending := rfl

/-! ### updView -/

@[simp] theorem State.updView_station (s : State) (p : Nat) (f : View → View) : (s.updView p f).station = s.station := rfl
@[simp] theorem State.updView_role (s : State) (p : Nat) (f : View → View) : (s.updView p f).role = s.role := rfl
@[simp] theorem State.updView_syncTimer (s : State) (p : Nat) (f : View → View) : (s.updView p f).syncTimer = s.syncTimer := rfl
@[simp] theorem State.updView_vsense (s : State) (p : Nat) (f : View → View) : (s.updView p f).vsense = s.vsense := rfl
@[simp] theorem State.updView_pmon (s : State) (p : Nat) (f : View → View) : (s.updView p f).pmon = s.pmon := rfl
@[simp] theorem State.updView_adu (s : State) (p : Nat) (f : View → View) : (s.updView p f).adu = s.adu := rfl
@[simp] theorem State.updView_mvc (s : State) (p : Nat) (f : View → View) : (s.updView p f).mvc = s.mvc := rfl
@[simp] theorem State.updView_smon (s : State) (p : Nat) (f : View → View) : (s.updView p f).smon = s.smon := rfl
@[simp] theorem State.updView_amon (s : State) (p : Nat) (f : View → View) : (s.updView p f).amon = s.amon := rfl
@[simp] theorem State.updView_liu (s : State) (p : Nat) (f : View → View) : (s.updView p f).liu = s.liu := rfl
@[simp] theorem State.updView_bus (s : State) (p : Nat) (f : View → View) : (s.updView p f).bus = s.bus := rfl
@[simp] theorem State.updView_rcs (s : State) (p : Nat) (f : View → View) : (s.updView p f).rcs = s.rcs := rfl
@[simp] theorem State.updView_pending (s : State) (p : Nat) (f : View → View) : (s.updView p f).pending = s.pending := rfl

/-! ### updPeer -/

@[simp] theorem State.updPeer_station (s : State) (r : Role) (f : PeerRec → PeerRec) : (s.updPeer r f).station = s.station := rfl
@[simp] theorem State.updPeer_role (s : State) (r : Role) (f : PeerRec → PeerRec) : (s.updPeer r f).role = s.role := rfl
@[simp] theorem State.updPeer_syncTimer (s : State) (r : Role) (f : PeerRec → PeerRec) : (s.updPeer r f).syncTimer = s.syncTimer := rfl
@[simp] theorem State.updPeer_vsense (s : State) (r : Role) (f : PeerRec → PeerRec) : (s.updPeer r f).vsense = s.vsense := rfl
@[simp] theorem State.updPeer_clu (s : State) (r : Role) (f : PeerRec → PeerRec) : (s.updPeer r f).clu = s.clu := rfl
@[simp] theorem State.updPeer_adu (s : State) (r : Role) (f : PeerRec → PeerRec) : (s.updPeer r f).adu = s.adu := rfl
@[simp] theorem State.updPeer_mvc (s : State) (r : Role) (f : PeerRec → PeerRec) : (s.updPeer r f).mvc = s.mvc := rfl
@[simp] theorem State.updPeer_smon (s : State) (r : Role) (f : PeerRec → PeerRec) : (s.updPeer r f).smon = s.smon := rfl
@[simp] theorem State.updPeer_amon (s : State) (r : Role) (f : PeerRec → PeerRec) : (s.updPeer r f).amon = s.amon := rfl
@[simp] theorem State.updPeer_liu (s : State) (r : Role) (f : PeerRec → PeerRec) : (s.updPeer r f).liu = s.liu := rfl
@[simp] theorem State.updPeer_bus (s : State) (r : Role) (f : PeerRec → PeerRec) : (s.updPeer r f).bus = s.bus := rfl
@[simp] theorem State.updPeer_rcs (s : State) (r : Role) (f : PeerRec → PeerRec) : (s.updPeer r f).rcs = s.rcs := rfl
@[simp] theorem State.updPeer_pending (s : State) (r : Role) (f : PeerRec → PeerRec) : (s.updPeer r f).pending = s.pending := rfl

/-! ### setDriveSet -/

@[simp] theorem State.setDriveSet_station (s : State) (sl : Slot) (b : Bool) : (s.setDriveSet sl b).station = s.station := rfl
@[simp] theorem State.setDriveSet_role (s : State) (sl : Slot) (b : Bool) : (s.setDriveSet sl b).role = s.role := rfl
@[simp] theorem State.setDriveSet_syncTimer (s : State) (sl : Slot) (b : Bool) : (s.setDriveSet sl b).syncTimer = s.syncTimer := rfl
@[simp] theorem State.setDriveSet_vsense (s : State) (sl : Slot) (b : Bool) : (s.setDriveSet sl b).vsense = s.vsense := rfl
@[simp] theorem State.setDriveSet_clu (s : State) (sl : Slot) (b : Bool) : (s.setDriveSet sl b).clu = s.clu := rfl
@[simp] theorem State.setDriveSet_pmon (s : State) (sl : Slot) (b : Bool) : (s.setDriveSet sl b).pmon = s.pmon := rfl
@[simp] theorem State.setDriveSet_adu (s : State) (sl : Slot) (b : Bool) : (s.setDriveSet sl b).adu = s.adu := rfl
@[simp] theorem State.setDriveSet_mvc (s : State) (sl : Slot) (b : Bool) : (s.setDriveSet sl b).mvc = s.mvc := rfl
@[simp] theorem State.setDriveSet_amon (s : State) (sl : Slot) (b : Bool) : (s.setDriveSet sl b).amon = s.amon := rfl
@[simp] theorem State.setDriveSet_liu (s : State) (sl : Slot) (b : Bool) : (s.setDriveSet sl b).liu = s.liu := rfl
@[simp] theorem State.setDriveSet_bus (s : State) (sl : Slot) (b : Bool) : (s.setDriveSet sl b).bus = s.bus := rfl
@[simp] theorem State.setDriveSet_rcs (s : State) (sl : Slot) (b : Bool) : (s.setDriveSet sl b).rcs = s.rcs := rfl
@[simp] theorem State.setDriveSet_pending (s : State) (sl : Slot) (b : Bool) : (s.setDriveSet sl b).pending = s.pending := rfl

/-! ### setScene -/

@[simp] theorem State.setScene_station (s : State) (a : Option SceneEntry) (es : List SceneEntry) : (s.setScene a es).station = s.station := rfl
@[simp] theorem State.setScene_role (s : State) (a : Option SceneEntry) (es : List SceneEntry) : (s.setScene a es).role = s.role := rfl
@[simp] theorem State.setScene_syncTimer (s : State) (a : Option SceneEntry) (es : List SceneEntry) : (s.setScene a es).syncTimer = s.syncTimer := rfl
@[simp] theorem State.setScene_vsense (s : State) (a : Option SceneEntry) (es : List SceneEntry) : (s.setScene a es).vsense = s.vsense := rfl
@[simp] theorem State.setScene_clu (s : State) (a : Option SceneEntry) (es : List SceneEntry) : (s.setScene a es).clu = s.clu := rfl
@[simp] theorem State.setScene_pmon (s : State) (a : Option SceneEntry) (es : List SceneEntry) : (s.setScene a es).pmon = s.pmon := rfl
@[simp] theorem State.setScene_adu (s : State) (a : Option SceneEntry) (es : List SceneEntry) : (s.setScene a es).adu = s.adu := rfl
@[simp] theorem State.setScene_smon (s : State) (a : Option SceneEntry) (es : List SceneEntry) : (s.setScene a es).smon = s.smon := rfl
@[simp] theorem State.setScene_amon (s : State) (a : Option SceneEntry) (es : List SceneEntry) : (s.setScene a es).amon = s.amon := rfl
@[simp] theorem State.setScene_liu (s : State) (a : Option SceneEntry) (es : List SceneEntry) : (s.setScene a es).liu = s.liu := rfl
@[simp] theorem State.setScene_bus (s : State) (a : Option SceneEntry) (es : List SceneEntry) : (s.setScene a es).bus = s.bus := rfl
@[simp] theorem State.setScene_rcs (s : State) (a : Option SceneEntry) (es : List SceneEntry) : (s.setScene a es).rcs = s.rcs := rfl
@[simp] theorem State.setScene_pending (s : State) (a : Option SceneEntry) (es : List SceneEntry) : (s.setScene a es).pending = s.pending := rfl

/-! ### withPending -/

@[simp] theorem State.withPending_station (s : State) (q : List Instr) : (s.withPending q).station = s.station := rfl
@[simp] theorem State.withPending_role (s : State) (q : List Instr) : (s.withPending q).role = s.role := rfl
@[simp] theorem State.withPending_syncTimer (s : State) (q : List Instr) : (s.withPending q).syncTimer = s.syncTimer := rfl
@[simp] theorem State.withPending_vsense (s : State) (q : List Instr) : (s.withPending q).vsense = s.vsense := rfl
@[simp] theorem State.withPending_clu (s : State) (q : List Instr) : (s.withPending q).clu = s.clu := rfl
@[simp] theorem State.withPending_pmon (s : State) (q : List Instr) : (s.withPending q).pmon = s.pmon := rfl
@[simp] theorem State.withPending_adu (s : State) (q : List Instr) : (s.withPending q).adu = s.adu := rfl
@[simp] theorem State.withPending_mvc (s : State) (q : List Instr) : (s.withPending q).mvc = s.mvc := rfl
@[simp] theorem State.withPending_smon (s : State) (q : List Instr) : (s.withPending q).smon = s.smon := rfl
@[simp] theorem State.withPending_amon (s : State) (q : List Instr) : (s.withPending q).amon = s.amon := rfl
@[simp] theorem State.withPending_liu (s : State) (q : List Instr) : (s.withPending q).liu = s.liu := rfl
@[simp] theorem State.withPending_bus (s : State) (q : List Instr) : (s.withPending q).bus = s.bus := rfl
@[simp] theorem State.withPending_rcs (s : State) (q : List Instr) : (s.withPending q).rcs = s.rcs := rfl

/-! ### recordDue -/

@[simp] theorem State.recordDue_station (s : State) (p : Nat) (k : PassageKind) : (s.recordDue p k).station = s.station := rfl
@[simp] theorem State.recordDue_role (s : State) (p : Nat) (k : PassageKind) : (s.recordDue p k).role = s.role := rfl
@[simp] theorem State.recordDue_syncTimer (s : State) (p : Nat) (k : PassageKind) : (s.recordDue p k).syncTimer = s.syncTimer := rfl
@[simp] theorem State.recordDue_vsense (s : State) (p : Nat) (k : PassageKind) : (s.recordDue p k).vsense = s.vsense := rfl
@[simp] theorem State.recordDue_pmon (s : State) (p : Nat) (k : PassageKind) : (s.recordDue p k).pmon = s.pmon := rfl
@[simp] theorem State.recordDue_adu (s : State) (p : Nat) (k : PassageKind) : (s.recordDue p k).adu = s.adu := rfl
@[simp] theorem State.recordDue_mvc (s : State) (p : Nat) (k : PassageKind) : (s.recordDue p k).mvc = s.mvc := rfl
@[simp] theorem State.recordDue_smon (s : State) (p : Nat) (k : PassageKind) : (s.recordDue p k).smon = s.smon := rfl
@[simp] theorem State.recordDue_amon (s : State) (p : Nat) (k : PassageKind) : (s.recordDue p k).amon = s.amon := rfl
@[simp] theorem State.recordDue_liu (s : State) (p : Nat) (k : PassageKind) : (s.recordDue p k).liu = s.liu := rfl
@[simp] theorem State.recordDue_bus (s : State) (p : Nat) (k : PassageKind) : (s.recordDue p k).bus = s.bus := rfl
@[simp] theorem State.recordDue_rcs (s : State) (p : Nat) (k : PassageKind) : (s.recordDue p k).rcs = s.rcs := rfl
@[simp] theorem State.recordDue_pending (s : State) (p : Nat) (k : PassageKind) : (s.recordDue p k).pending = s.pending := rfl
@[simp] theorem State.recordDue_views (s : State) (p : Nat) (k : PassageKind) : (s.recordDue p k).clu.views = s.clu.views := rfl
@[simp] theorem State.recordDue_envelopes (s : State) (p : Nat) (k : PassageKind) : (s.recordDue p k).clu.envelopes = s.clu.envelopes := rfl
@[simp] theorem State.view?_recordDue (s : State) (p q : Nat) (k : PassageKind) : (s.recordDue p k).view? q = s.view? q := rfl

/-! ### dropDue -/

@[simp] theorem State.dropDue_station (s : State) (p : Nat) (k : PassageKind) : (s.dropDue p k).station = s.station := rfl
@[simp] theorem State.dropDue_role (s : State) (p : Nat) (k : PassageKind) : (s.dropDue p k).role = s.role := rfl
@[simp] theorem State.dropDue_syncTimer (s : State) (p : Nat) (k : PassageKind) : (s.dropDue p k).syncTimer = s.syncTimer := rfl
@[simp] theorem State.dropDue_vsense (s : State) (p : Nat) (k : PassageKind) : (s.dropDue p k).vsense = s.vsense := rfl
@[simp] theorem State.dropDue_pmon (s : State) (p : Nat) (k : PassageKind) : (s.dropDue p k).pmon = s.pmon := rfl
@[simp] theorem State.dropDue_adu (s : State) (p : Nat) (k : PassageKind) : (s.dropDue p k).adu = s.adu := rfl
@[simp] theorem State.dropDue_mvc (s : State) (p : Nat) (k : PassageKind) : (s.dropDue p k).mvc = s.mvc := rfl
@[simp] theorem State.dropDue_smon (s : State) (p : Nat) (k : PassageKind) : (s.dropDue p k).smon = s.smon := rfl
@[simp] theorem State.dropDue_amon (s : State) (p : Nat) (k : PassageKind) : (s.dropDue p k).amon = s.amon := rfl
@[simp] theorem State.dropDue_liu (s : State) (p : Nat) (k : PassageKind) : (s.dropDue p k).liu = s.liu := rfl
@[simp] theorem State.dropDue_bus (s : State) (p : Nat) (k : PassageKind) : (s.dropDue p k).bus = s.bus := rfl
@[simp] theorem State.dropDue_rcs (s : State) (p : Nat) (k : PassageKind) : (s.dropDue p k).rcs = s.rcs := rfl
@[simp] theorem State.dropDue_pending (s : State) (p : Nat) (k : PassageKind) : (s.dropDue p k).pending = s.pending := rfl
@[simp] theorem State.dropDue_views (s : State) (p : Nat) (k : PassageKind) : (s.dropDue p k).clu.views = s.clu.views := rfl
@[simp] theorem State.dropDue_envelopes (s : State) (p : Nat) (k : PassageKind) : (s.dropDue p k).clu.envelopes = s.clu.envelopes := rfl
@[simp] theorem State.view?_dropDue (s : State) (p q : Nat) (k : PassageKind) : (s.dropDue p k).view? q = s.view? q := rfl

/-! ### dropClaims -/

@[simp] theorem State.dropClaims_station (s : State) (sl : Slot) : (s.dropClaims sl).station = s.station := rfl
@[simp] theorem State.dropClaims_role (s : State) (sl : Slot) : (s.dropClaims sl).role = s.role := rfl
@[simp] theorem State.dropClaims_syncTimer (s : State) (sl : Slot) : (s.dropClaims sl).syncTimer = s.syncTimer := rfl
@[simp] theorem State.dropClaims_vsense (s : State) (sl : Slot) : (s.dropClaims sl).vsense = s.vsense := rfl
@[simp] theorem State.dropClaims_pmon (s : State) (sl : Slot) : (s.dropClaims sl).pmon = s.pmon := rfl
@[simp] theorem State.dropClaims_adu (s : State) (sl : Slot) : (s.dropClaims sl).adu = s.adu := rfl
@[simp] theorem State.dropClaims_mvc (s : State) (sl : Slot) : (s.dropClaims sl).mvc = s.mvc := rfl
@[simp] theorem State.dropClaims_smon (s : State) (sl : Slot) : (s.dropClaims sl).smon = s.smon := rfl
@[simp] theorem State.dropClaims_amon (s : State) (sl : Slot) : (s.dropClaims sl).amon = s.amon := rfl
@[simp] theorem State.dropClaims_liu (s : State) (sl : Slot) : (s.dropClaims sl).liu = s.liu := rfl
@[simp] theorem State.dropClaims_bus (s : State) (sl : Slot) : (s.dropClaims sl).bus = s.bus := rfl
@[simp] theorem State.dropClaims_rcs (s : State) (sl : Slot) : (s.dropClaims sl).rcs = s.rcs := rfl
@[simp] theorem State.dropClaims_pending (s : State) (sl : Slot) : (s.dropClaims sl).pending = s.pending := rfl
@[simp] theorem State.dropClaims_views (s : State) (sl : Slot) : (s.dropClaims sl).clu.views = s.clu.views := rfl
@[simp] theorem State.dropClaims_envelopes (s : State) (sl : Slot) : (s.dropClaims sl).clu.envelopes = s.clu.envelopes := rfl
@[simp] theorem State.view?_dropClaims (s : State) (sl : Slot) (q : Nat) : (s.dropClaims sl).view? q = s.view? q := rfl
@[simp] theorem State.job_dropClaims (s : State) (sl x : Slot) : (s.dropClaims sl).job x = s.job x := rfl
@[simp] theorem State.drive_dropClaims (s : State) (sl x : Slot) : (s.dropClaims sl).drive x = s.drive x := rfl

/-! ### setDue -/

@[simp] theorem State.setDue_station (s : State) (ds : List Due) : (s.setDue ds).station = s.station := rfl
@[simp] theorem State.setDue_role (s : State) (ds : List Due) : (s.setDue ds).role = s.role := rfl
@[simp] theorem State.setDue_syncTimer (s : State) (ds : List Due) : (s.setDue ds).syncTimer = s.syncTimer := rfl
@[simp] theorem State.setDue_vsense (s : State) (ds : List Due) : (s.setDue ds).vsense = s.vsense := rfl
@[simp] theorem State.setDue_pmon (s : State) (ds : List Due) : (s.setDue ds).pmon = s.pmon := rfl
@[simp] theorem State.setDue_adu (s : State) (ds : List Due) : (s.setDue ds).adu = s.adu := rfl
@[simp] theorem State.setDue_mvc (s : State) (ds : List Due) : (s.setDue ds).mvc = s.mvc := rfl
@[simp] theorem State.setDue_smon (s : State) (ds : List Due) : (s.setDue ds).smon = s.smon := rfl
@[simp] theorem State.setDue_amon (s : State) (ds : List Due) : (s.setDue ds).amon = s.amon := rfl
@[simp] theorem State.setDue_liu (s : State) (ds : List Due) : (s.setDue ds).liu = s.liu := rfl
@[simp] theorem State.setDue_bus (s : State) (ds : List Due) : (s.setDue ds).bus = s.bus := rfl
@[simp] theorem State.setDue_rcs (s : State) (ds : List Due) : (s.setDue ds).rcs = s.rcs := rfl
@[simp] theorem State.setDue_pending (s : State) (ds : List Due) : (s.setDue ds).pending = s.pending := rfl
@[simp] theorem State.setDue_views (s : State) (ds : List Due) : (s.setDue ds).clu.views = s.clu.views := rfl
@[simp] theorem State.setDue_envelopes (s : State) (ds : List Due) : (s.setDue ds).clu.envelopes = s.clu.envelopes := rfl
@[simp] theorem State.view?_setDue (s : State) (ds : List Due) (q : Nat) : (s.setDue ds).view? q = s.view? q := rfl

/-! ### awaitSlot -/

@[simp] theorem State.awaitSlot_station (s : State) (p : Nat) (k : PassageKind) (f : Frame) : (s.awaitSlot p k f).station = s.station := rfl
@[simp] theorem State.awaitSlot_role (s : State) (p : Nat) (k : PassageKind) (f : Frame) : (s.awaitSlot p k f).role = s.role := rfl
@[simp] theorem State.awaitSlot_syncTimer (s : State) (p : Nat) (k : PassageKind) (f : Frame) : (s.awaitSlot p k f).syncTimer = s.syncTimer := rfl
@[simp] theorem State.awaitSlot_vsense (s : State) (p : Nat) (k : PassageKind) (f : Frame) : (s.awaitSlot p k f).vsense = s.vsense := rfl
@[simp] theorem State.awaitSlot_pmon (s : State) (p : Nat) (k : PassageKind) (f : Frame) : (s.awaitSlot p k f).pmon = s.pmon := rfl
@[simp] theorem State.awaitSlot_adu (s : State) (p : Nat) (k : PassageKind) (f : Frame) : (s.awaitSlot p k f).adu = s.adu := rfl
@[simp] theorem State.awaitSlot_mvc (s : State) (p : Nat) (k : PassageKind) (f : Frame) : (s.awaitSlot p k f).mvc = s.mvc := rfl
@[simp] theorem State.awaitSlot_smon (s : State) (p : Nat) (k : PassageKind) (f : Frame) : (s.awaitSlot p k f).smon = s.smon := rfl
@[simp] theorem State.awaitSlot_amon (s : State) (p : Nat) (k : PassageKind) (f : Frame) : (s.awaitSlot p k f).amon = s.amon := rfl
@[simp] theorem State.awaitSlot_liu (s : State) (p : Nat) (k : PassageKind) (f : Frame) : (s.awaitSlot p k f).liu = s.liu := rfl
@[simp] theorem State.awaitSlot_bus (s : State) (p : Nat) (k : PassageKind) (f : Frame) : (s.awaitSlot p k f).bus = s.bus := rfl
@[simp] theorem State.awaitSlot_rcs (s : State) (p : Nat) (k : PassageKind) (f : Frame) : (s.awaitSlot p k f).rcs = s.rcs := rfl
@[simp] theorem State.awaitSlot_pending (s : State) (p : Nat) (k : PassageKind) (f : Frame) : (s.awaitSlot p k f).pending = s.pending := rfl
@[simp] theorem State.awaitSlot_views (s : State) (p : Nat) (k : PassageKind) (f : Frame) : (s.awaitSlot p k f).clu.views = s.clu.views := rfl
@[simp] theorem State.awaitSlot_envelopes (s : State) (p : Nat) (k : PassageKind) (f : Frame) : (s.awaitSlot p k f).clu.envelopes = s.clu.envelopes := rfl
@[simp] theorem State.view?_awaitSlot (s : State) (p : Nat) (k : PassageKind) (f : Frame) (q : Nat) : (s.awaitSlot p k f).view? q = s.view? q := rfl

/-! ### leaveWaiting -/

@[simp] theorem State.leaveWaiting_station (s : State) (f : Frame) : (s.leaveWaiting f).station = s.station := rfl
@[simp] theorem State.leaveWaiting_role (s : State) (f : Frame) : (s.leaveWaiting f).role = s.role := rfl
@[simp] theorem State.leaveWaiting_syncTimer (s : State) (f : Frame) : (s.leaveWaiting f).syncTimer = s.syncTimer := rfl
@[simp] theorem State.leaveWaiting_vsense (s : State) (f : Frame) : (s.leaveWaiting f).vsense = s.vsense := rfl
@[simp] theorem State.leaveWaiting_pmon (s : State) (f : Frame) : (s.leaveWaiting f).pmon = s.pmon := rfl
@[simp] theorem State.leaveWaiting_adu (s : State) (f : Frame) : (s.leaveWaiting f).adu = s.adu := rfl
@[simp] theorem State.leaveWaiting_mvc (s : State) (f : Frame) : (s.leaveWaiting f).mvc = s.mvc := rfl
@[simp] theorem State.leaveWaiting_smon (s : State) (f : Frame) : (s.leaveWaiting f).smon = s.smon := rfl
@[simp] theorem State.leaveWaiting_amon (s : State) (f : Frame) : (s.leaveWaiting f).amon = s.amon := rfl
@[simp] theorem State.leaveWaiting_liu (s : State) (f : Frame) : (s.leaveWaiting f).liu = s.liu := rfl
@[simp] theorem State.leaveWaiting_bus (s : State) (f : Frame) : (s.leaveWaiting f).bus = s.bus := rfl
@[simp] theorem State.leaveWaiting_rcs (s : State) (f : Frame) : (s.leaveWaiting f).rcs = s.rcs := rfl
@[simp] theorem State.leaveWaiting_pending (s : State) (f : Frame) : (s.leaveWaiting f).pending = s.pending := rfl
@[simp] theorem State.leaveWaiting_views (s : State) (f : Frame) : (s.leaveWaiting f).clu.views = s.clu.views := rfl
@[simp] theorem State.leaveWaiting_envelopes (s : State) (f : Frame) : (s.leaveWaiting f).clu.envelopes = s.clu.envelopes := rfl
@[simp] theorem State.view?_leaveWaiting (s : State) (f : Frame) (q : Nat) : (s.leaveWaiting f).view? q = s.view? q := rfl

/-! ### What waits for a general slot -/

/-- Filtering what is due leaves the waiting frames alone where it drops records only (R152). -/
theorem filterMap_frame_filter (ds : List Due) (P : Due → Bool) (h : ∀ x ∈ ds, x.frame.isSome = true → P x = true) :
    (ds.filter P).filterMap (·.frame) = ds.filterMap (·.frame) := by
  induction ds with
  | nil => rfl
  | cons x xs ih =>
    have hx := h x (by simp)
    have ht := ih (fun y hy => h y (by simp [hy]))
    cases hf : x.frame with
    | none => by_cases hP : P x = true <;> simp [hP, hf, ht]
    | some f => simp [hx (by simp [hf]), hf, ht]

@[simp] theorem State.setDue_due (s : State) (ds : List Due) : (s.setDue ds).clu.due = ds := rfl
@[simp] theorem State.setDue_waiting (s : State) (ds : List Due) : (s.setDue ds).clu.waiting = ds.filterMap (·.frame) := rfl

@[simp] theorem State.recordDue_waiting (s : State) (p : Nat) (k : PassageKind) : (s.recordDue p k).clu.waiting = s.clu.waiting := by
  simp only [State.recordDue, State.setDue_waiting]
  split <;> simp [Clu.waiting]

@[simp] theorem State.dropDue_waiting (s : State) (p : Nat) (k : PassageKind) : (s.dropDue p k).clu.waiting = s.clu.waiting :=
  filterMap_frame_filter _ _ (fun x _ hx => by
    have : x ≠ ⟨p, k, none⟩ := by rintro rfl; simp at hx
    simp [this])

@[simp] theorem State.dropClaims_waiting (s : State) (sl : Slot) : (s.dropClaims sl).clu.waiting = s.clu.waiting :=
  filterMap_frame_filter _ _ (fun x _ hx => by simp [hx])

/-- The frame that takes a slot leaves the waiting ones (R152). -/
@[simp] theorem State.leaveWaiting_waiting (s : State) (f : Frame) : (s.leaveWaiting f).clu.waiting = s.clu.waiting.erase f := by
  rw [State.leaveWaiting, State.setDue_waiting, Clu.waiting]
  induction s.clu.due with
  | nil => rfl
  | cons x xs ih =>
    cases hx : x.frame with
    | none => simp [hx, ih]
    | some g => by_cases hg : g = f <;> simp [hx, hg, ih]

/-- A frame that falls due as it is handed waits behind all that wait (R152). -/
theorem State.awaitSlot_waiting (s : State) (p : Nat) (k : PassageKind) (f : Frame) (h : ⟨p, k, none⟩ ∉ s.clu.due) :
    (s.awaitSlot p k f).clu.waiting = s.clu.waiting ++ [f] := by
  simp [State.awaitSlot, Clu.waiting, h]

/-- A frame of a pair recorded as due, of which there is one record, waits between those that fell due before it and those that fell due
after it (R38, R152). -/
theorem State.awaitSlot_waiting_recorded (s : State) (p : Nat) (k : PassageKind) (f : Frame) (a b : List Due)
    (h : s.clu.due = a ++ ⟨p, k, none⟩ :: b) (ha : ⟨p, k, none⟩ ∉ a) (hb : ⟨p, k, none⟩ ∉ b) :
    (s.awaitSlot p k f).clu.waiting = a.filterMap (·.frame) ++ f :: b.filterMap (·.frame) := by
  have keep : ∀ ds : List Due, ⟨p, k, none⟩ ∉ ds → ds.map (fun x => if x = ⟨p, k, none⟩ then ⟨p, k, some f⟩ else x) = ds :=
    fun ds hd => (List.map_congr_left (fun x hx => by rw [if_neg (by rintro rfl; exact hd hx)]; rfl)).trans (List.map_id ds)
  simp [State.awaitSlot, h, keep a ha, keep b hb]

/-- What handing a passage frame over does, said once (R38, R152). -/
theorem State.handPassage_hands (s : State) (p : Nat) (k : PassageKind) (pl : Payload) :
    s.Hands (s.handPassage p k pl) p k (encode s.sender pl) := by
  have hu : ∀ f, (s.updView p f).clu.due = s.clu.due ∧ (s.updView p f).clu.waiting = s.clu.waiting ∧ (s.updView p f).bus = s.bus :=
    fun _ => ⟨rfl, rfl, rfl⟩
  simp only [State.Hands, State.handPassage, State.placePassage, Bif.hasRoom, Config.generalCapacity]
  by_cases h : s.clu.waiting = [] ∧ s.bus.general.length < 5
  · simp [h, hu, State.dropDue, State.setBus, State.setDue]
  · have h' : ¬(s.clu.waiting.isEmpty = true ∧ s.bus.general.length < 5) := by simpa using h
    simp only [h, if_false, (hu _).2.1, (hu _).2.2, Bool.and_eq_true, decide_eq_true_eq, h']
    refine ⟨rfl, fun hm => ?_, fun hm => ?_⟩ <;> simp [State.awaitSlot, hu, hm]

/-! ### What an update sets -/

@[simp] theorem State.drive_setDrive (s : State) (a b : Slot) (d : Drive) :
    (s.setDrive a d).drive b = if a = b then d else s.drive b := PerSlot.get_set _ _ _ _
@[simp] theorem State.job_setJob (s : State) (a b : Slot) (j : Job) :
    (s.setJob a j).job b = if a = b then j else s.job b := PerSlot.get_set _ _ _ _
@[simp] theorem State.queuedAt_setQueued (s : State) (a b : Slot) (q : Option QueuedStart) :
    (s.setQueued a q).queuedAt b = if a = b then q else s.queuedAt b := PerSlot.get_set _ _ _ _
@[simp] theorem State.setBus_bus (s : State) (b : Bif) : (s.setBus b).bus = b := rfl
@[simp] theorem State.withSense_vsense (s : State) (v : Nat) : (s.withSense v).vsense = v := rfl
@[simp] theorem State.withPending_pending (s : State) (q : List Instr) : (s.withPending q).pending = q := rfl
@[simp] theorem State.drive_setJob (s : State) (a b : Slot) (j : Job) : (s.setJob a j).drive b = s.drive b := rfl
@[simp] theorem State.job_setDrive (s : State) (a b : Slot) (d : Drive) : (s.setDrive a d).job b = s.job b := rfl
@[simp] theorem State.drive_updView (s : State) (p : Nat) (f : View → View) (sl : Slot) :
    (s.updView p f).drive sl = s.drive sl := rfl
@[simp] theorem State.job_updView (s : State) (p : Nat) (f : View → View) (sl : Slot) :
    (s.updView p f).job sl = s.job sl := rfl
@[simp] theorem State.view?_setDrive (s : State) (p : Nat) (sl : Slot) (d : Drive) : (s.setDrive sl d).view? p = s.view? p := rfl
@[simp] theorem State.view?_setJob (s : State) (p : Nat) (sl : Slot) (j : Job) : (s.setJob sl j).view? p = s.view? p := rfl
@[simp] theorem State.view?_setBus (s : State) (p : Nat) (b : Bif) : (s.setBus b).view? p = s.view? p := rfl

/-! ### What a crossing list calls for -/

/-- Which pairs the entries of a crossing list call for, said once (R31, R50): those of an entry that is not passed, and not HELD behind a
FAILED one. -/
theorem neededEntries_any (es : List Entry) (p : Nat) :
    (neededEntries es).any (fun e => e.pair == p) = true ↔
      ∃ a st c, es = a ++ ⟨p, st⟩ :: c ∧ st ≠ .passed ∧ (st = .held → ∀ e ∈ a, ∀ f, e.status ≠ .failed f) := by
  have behind : ∀ xs : List Entry, (∃ e ∈ xs.filter (fun e => e.status != .passed && e.status != .held), e.pair = p) ↔
      ∃ a st c, xs = a ++ ⟨p, st⟩ :: c ∧ st ≠ .passed ∧ st ≠ .held := by
    intro xs
    constructor
    · rintro ⟨e, he, hp⟩
      simp only [List.mem_filter, Bool.and_eq_true, bne_iff_ne] at he
      obtain ⟨a, c, rfl⟩ := List.append_of_mem he.1
      exact ⟨a, e.status, c, by rw [← hp], he.2.1, he.2.2⟩
    · rintro ⟨a, st, c, rfl, h1, h2⟩
      exact ⟨⟨p, st⟩, by simp [h1, h2], rfl⟩
  induction es with
  | nil => simp [neededEntries]
  | cons x xs ih =>
    cases hx : x.status.isFailed with
    | true =>
      obtain ⟨g, hg⟩ : ∃ g, x.status = .failed g := by
        cases h : x.status <;> simp [h, EntryStatus.isFailed] at hx ⊢
      have h0 : neededEntries (x :: xs) = x :: xs.filter (fun e => e.status != .passed && e.status != .held) := by
        rw [neededEntries, List.takeWhile_cons_of_neg (by simp [hx]), List.dropWhile_cons_of_neg (by simp [hx])]
        simp [hg]
      rw [h0, List.any_cons, Bool.or_eq_true, List.any_eq_true]
      simp only [beq_iff_eq, behind]
      constructor
      · rintro (h | ⟨a, st, c, rfl, h1, h2⟩)
        · exact ⟨[], x.status, xs, by rw [← h]; rfl, by simp [hg], by simp [hg]⟩
        · exact ⟨x :: a, st, c, rfl, h1, fun h => absurd h h2⟩
      · rintro ⟨a, st, c, he, h1, h2⟩
        cases a with
        | nil => left; simp at he; rw [he.1]
        | cons y a =>
          simp at he
          refine .inr ⟨a, st, c, he.2, h1, fun h => h2 h y (by simp) g (he.1 ▸ hg)⟩
    | false =>
      have h0 : (neededEntries (x :: xs)).any (fun e => e.pair == p) =
          ((x.status != .passed && x.pair == p) || (neededEntries xs).any (fun e => e.pair == p)) := by
        rw [neededEntries, List.takeWhile_cons_of_pos (by simp [hx]), List.dropWhile_cons_of_pos (by simp [hx])]
        cases h : (x.status != EntryStatus.passed) <;> simp [neededEntries, h]
      rw [h0, Bool.or_eq_true]
      refine (or_congr Iff.rfl ih).trans ?_
      constructor
      · rintro (h | ⟨a, st, c, rfl, h1, h2⟩)
        · simp at h
          exact ⟨[], x.status, xs, by rw [← h.2]; rfl, h.1, by simp⟩
        · refine ⟨x :: a, st, c, rfl, h1, fun h e he f => ?_⟩
          rcases List.mem_cons.mp he with rfl | he
          · intro hf; simp [hf, EntryStatus.isFailed] at hx
          · exact h2 h e he f
      · rintro ⟨a, st, c, he, h1, h2⟩
        cases a with
        | nil => left; simp at he; simp [he.1, h1]
        | cons y a =>
          simp at he
          exact .inr ⟨a, st, c, he.2, h1, fun h e hm => h2 h e (by simp [hm])⟩

end Sys2Proof.Machine
end

