-- ==== Sys2Proof/Laws/Evolves.lean ====
section
/-! SUPPORT. What the reports of one step can do to the state, said once. `Evolves` lists the updates by which a block answers a
report; `handle_evolves` says that every block's answer is made of them, and `settle_evolves` that a step carried to its end
is. A property of states that each listed update keeps is then kept by every step (Laws/Kept.lean).

`loose` is false for a step whose reports never touch the station state, a peer record, or a peer pair's view but for claims
decided and withdrawn (`Report.isLocal`). -/

namespace Sys2Proof.Machine

/-- What every update of a drive record inside a step keeps: the count, REFERENCED, whether the axis has a count range and its span
if it has, the soundness of the record, and no entry into DRIVING under a barring supply. -/
structure DriveKept (s : State) (sl : Slot) (d : Drive) : Prop where
  count : d.count = (s.drive sl).count
  referenced : d.referenced = (s.drive sl).referenced
  range : d.hasRange = (s.drive sl).hasRange
  span : d.hasRange = true → d.span = (s.drive sl).span
  sound : (s.drive sl).sound → d.sound
  supply : d.axis = .driving → (s.drive sl).axis = .driving ∨ s.supplyBars = false

/-- The updates by which a block answers a report of a step. -/
inductive Evolves (loose : Prop) : State → State → Prop where
  | refl (s : State) : Evolves loose s s
  | trans {s t u : State} : Evolves loose s t → Evolves loose t u → Evolves loose s u
  | activity (s : State) : Evolves loose s s.noteActivity
  | moves (s : State) (m : Mvc) (hj : m.jogs = s.mvc.jogs)
      (ho : m.outgoing.length ≤ s.mvc.outgoing.length ∨ m.outgoing.length ≤ Config.outgoingCapacity) :
      Evolves loose s { s with mvc := m }
  | drive (s : State) (sl : Slot) (d : Drive) (h : DriveKept s sl d) : Evolves loose s (s.setDrive sl d)
  | unreferenced (s : State) (sl : Slot) : Evolves loose s (s.setReferenced sl false)
  | envelope (s : State) (sl : Slot) (e : Envelope) (he : e = s.envelopeFor sl ∨ e = s.nextEnvelope sl) :
      Evolves loose s (s.setEnvelope sl e)
  | view (s : State) (p : Nat) (f : View → View)
      (hid : ∀ v, (f v).pair = v.pair ∧ (f v).slot = v.slot ∧ (f v).band = v.band ∧ (f v).other = v.other)
      (hg : ∀ v, (f v).state = v.state)
      (hs : loose ∨ ∀ v, s.view? p = some v → v.peerRole.isSome = true → v.settlesAs (f v)) :
      Evolves loose s (s.updView p f)
  | moved (s : State) (v : View) (st : ViewState) (hv : s.view? v.pair = some v)
      (hs : loose ∨ (v.peerRole.isSome = true → v.settlesAs (v.goTo st))) : Evolves loose s (s.moveView v st)
  | due (s : State) (ds : List Due) : Evolves loose s (s.setDue ds)
  | general (s : State) (fs : List Frame)
      (h : fs.length ≤ s.bus.general.length ∨ fs.length ≤ Config.generalCapacity) :
      Evolves loose s (s.setBus { s.bus with general := fs })
  | driveSet (s : State) (sl : Slot) (b : Bool) : Evolves loose s (s.setDriveSet sl b)
  | sample (s : State) (m : Smon)
      (hb : m.level = .critical → s.smon.level ≠ .critical → ∀ sl : Slot, (s.drive sl).axis ≠ .driving)
      (hu : m.level ≠ .unknown)
      (hr : (m.level, m.recovery) = applySample s.smon.level s.smon.recovery (supplySample s.vsense)) :
      Evolves loose s { s with smon := m }
  | calibrate (s : State) (sl : Slot) (n : Nat) :
      Evolves loose s
        { s with
          rcs := { s.rcs with
            calibration := s.rcs.calibration.set sl { s.rcs.calibration.get sl with marker := false }
            writing := s.rcs.writing.set sl (some n)
            writeTimer := s.rcs.writeTimer.set sl (some Config.calibrationTime) } }
  | missesMe (s : State) (r : Role) (b : Bool) (h : loose) : Evolves loose s (s.updPeer r (fun q => q.countMissesMe b))
  | unforced (s : State) (r : Role) (h : loose) : Evolves loose s (s.clearForced r)
  | running (s : State) (h : loose) : Evolves loose s { s with station := .run, syncTimer := none }
  | wake (s : State) : Evolves loose s s.takeActivity

namespace Evolves

variable {loose : Prop} {s t u : State}

/-- A frame of a pair recorded as due, or due no longer. -/
theorem recordedDue (s : State) (p : Nat) (k : PassageKind) : Evolves loose s (s.recordDue p k) := .due s _
theorem droppedDue (s : State) (p : Nat) (k : PassageKind) : Evolves loose s (s.dropDue p k) := .due s _

theorem droppedClaims (s : State) (sl : Slot) : Evolves loose s (s.dropClaims sl) := .due s _

/-- The envelope of an axis recomputed. -/
theorem rebuilt (s : State) (sl : Slot) : Evolves loose s (s.buildEnvelope sl) := .envelope s sl _ (.inr rfl)

/-- One update after another, the first given by an effect's state. -/
theorem andThen {e : Effect} {f : State → Effect} (h : Evolves loose s e.1) (hf : Evolves loose e.1 (f e.1).1) :
    Evolves loose s (e.andThen f).1 := h.trans hf

theorem job (s : State) (sl : Slot) (j : Job) : Evolves loose s (s.setJob sl j) := .moves s _ rfl (.inl le_rfl)
theorem queued (s : State) (sl : Slot) (q : Option QueuedStart) : Evolves loose s (s.setQueued sl q) := .moves s _ rfl (.inl le_rfl)
theorem pin (s : State) (sl : Slot) (b : Bool) : Evolves loose s (s.setPin sl b) := .moves s _ rfl (.inl le_rfl)
theorem scene (s : State) (a : Option SceneEntry) (es : List SceneEntry) : Evolves loose s (s.setScene a es) :=
  .moves s _ rfl (.inl le_rfl)

/-- A view's update that keeps its state and its waiter, and its wait timer or stops it. -/
theorem record (s : State) (p : Nat) (f : View → View)
    (hf : ∀ v, (f v).pair = v.pair ∧ (f v).slot = v.slot ∧ (f v).band = v.band ∧ (f v).other = v.other ∧ (f v).state = v.state)
    (hw : ∀ v, (f v).waiter = v.waiter ∧ ((f v).waitTimer = v.waitTimer ∨ (f v).waitTimer = none)) :
    Evolves loose s (s.updView p f) :=
  .view s p f (fun v => ⟨(hf v).1, (hf v).2.1, (hf v).2.2.1, (hf v).2.2.2.1⟩) (fun v => (hf v).2.2.2.2)
    (.inr fun v _ _ =>
      ⟨by rw [(hf v).2.2.2.2]; cases v.state <;> simp [ViewState.settlesAs], fun _ => (hw v).1, .inl (hw v).1, (hw v).2⟩)

/-- A view's update that concerns its other fields. -/
theorem note (s : State) (p : Nat) (f : View → View)
    (hf : ∀ v, (f v).pair = v.pair ∧ (f v).slot = v.slot ∧ (f v).band = v.band ∧ (f v).other = v.other ∧ (f v).state = v.state
      ∧ (f v).waiter = v.waiter ∧ (f v).waitTimer = v.waitTimer) :
    Evolves loose s (s.updView p f) :=
  .record s p f (fun v => ⟨(hf v).1, (hf v).2.1, (hf v).2.2.1, (hf v).2.2.2.1, (hf v).2.2.2.2.1⟩)
    (fun v => ⟨(hf v).2.2.2.2.2.1, .inl (hf v).2.2.2.2.2.2⟩)

theorem owedCede (s : State) (p : Nat) : Evolves loose s (s.oweCede p) :=
  (note s p (fun w => { w with cedeDue := true }) (fun _ => ⟨rfl, rfl, rfl, rfl, rfl, rfl, rfl⟩)).trans (.recordedDue _ _ _)
theorem owedStake (s : State) (p : Nat) : Evolves loose s (s.oweStake p) :=
  (note s p (fun w => { w with stakeDue := true }) (fun _ => ⟨rfl, rfl, rfl, rfl, rfl, rfl, rfl⟩)).trans (.recordedDue _ _ _)
theorem clearedStake (s : State) (p : Nat) : Evolves loose s (s.clearStake p) :=
  (note s p (fun w => { w with stakeDue := false }) (fun _ => ⟨rfl, rfl, rfl, rfl, rfl, rfl, rfl⟩)).trans (.droppedDue _ _ _)

/-- A self pair's update that keeps its state. -/
theorem selfRecord (s : State) (p : Nat) (f : View → View)
    (hf : ∀ v, (f v).pair = v.pair ∧ (f v).slot = v.slot ∧ (f v).band = v.band ∧ (f v).other = v.other ∧ (f v).state = v.state)
    (h : ∀ v, s.view? p = some v → v.peerRole = none) : Evolves loose s (s.updView p f) :=
  .view s p f (fun v => ⟨(hf v).1, (hf v).2.1, (hf v).2.2.1, (hf v).2.2.2.1⟩) (fun v => (hf v).2.2.2.2)
    (.inr fun v hv hp => by simp [h v hv] at hp)

end Evolves

end Sys2Proof.Machine
end

