-- ==== Sys2Proof/Laws/Handlers.lean ====
section
/-! SUPPORT. Every block's answer to a report is made of the updates of `Evolves`: one lemma for each operation, in the order of
the definitions. -/

namespace Sys2Proof.Machine

variable {loose : Prop}

/-! ### Frames -/

theorem State.placePassage_evolves (s : State) (p : Nat) (k : PassageKind) (f : Frame) :
    Evolves loose s (s.placePassage p k f) := by
  unfold State.placePassage
  split
  · rename_i h
    simp only [Bool.and_eq_true, Bif.hasRoom, decide_eq_true_eq] at h
    exact (Evolves.droppedDue s p k).trans (.general (s.dropDue p k) (s.bus.general ++ [f]) (.inr (by simp; omega)))
  · exact .due s _

theorem State.handPassage_evolves (s : State) (p : Nat) (k : PassageKind) (pl : Payload) :
    Evolves loose s (s.handPassage p k pl) :=
  (Evolves.note s p (fun v => { v with inFlight := some k }) (fun _ => ⟨rfl, rfl, rfl, rfl, rfl, rfl, rfl⟩)).trans
    (State.placePassage_evolves _ _ _ _)

theorem State.serveDueStake_evolves (s : State) (p : Nat) : Evolves loose s (s.serveDueStake p) :=
  (Evolves.note s p (fun w => { w with stakeDue := false }) (fun _ => ⟨rfl, rfl, rfl, rfl, rfl, rfl, rfl⟩)).trans
    (State.handPassage_evolves _ _ _ _)

theorem State.drainOutgoing_evolves (n : Nat) (s : State) : Evolves loose s (State.drainOutgoing n s) := by
  induction n generalizing s with
  | zero => exact .refl s
  | succ n ih =>
    unfold State.drainOutgoing
    split
    · exact .refl s
    · rename_i f fs hf
      split
      · rename_i h
        simp only [Bool.and_eq_true, Bif.hasRoom, decide_eq_true_eq] at h
        refine Evolves.trans ?_ (ih _)
        have h1 : Evolves loose s { s with mvc := { s.mvc with outgoing := fs } } :=
          .moves s _ rfl (.inl (by simp [hf]))
        exact h1.trans (.general { s with mvc := { s.mvc with outgoing := fs } } (s.bus.general ++ [f]) (.inr (by simp; omega)))
      · exact .refl s

theorem State.placeOutgoing_evolves (s : State) (f : Frame) : Evolves loose s (s.placeOutgoing f) := by
  unfold State.placeOutgoing
  simp only
  refine (State.drainOutgoing_evolves Config.outgoingCapacity s).trans ?_
  generalize State.drainOutgoing Config.outgoingCapacity s = t
  refine Evolves.trans ?_ (State.drainOutgoing_evolves Config.outgoingCapacity _)
  refine .moves t _ rfl ?_
  simp only [Mvc.append, Config.outgoingCapacity]
  by_cases h : (t.mvc.outgoing ++ [f]).length > 4
  · simp only [h, if_true]; simp
  · simp only [h, if_false]; omega

theorem State.assignSlot_evolves (s : State) : Evolves loose s s.assignSlot := by
  unfold State.assignSlot
  split
  · rename_i h
    simp only [Bool.and_eq_true, Bif.hasRoom, decide_eq_true_eq] at h
    split
    · exact .refl s
    · rename_i f _
      have h1 : Evolves loose s (s.setBus { s.bus with general := s.bus.general ++ [f] }) := .general s _ (.inr (by simp; omega))
      simp only
      split
      · exact h1.trans (.due _ _)
      · exact h1.trans (.moves _ _ rfl (.inl (by simp)))
  · exact .refl s

theorem State.assignSlots_evolves (n : Nat) (s : State) : Evolves loose s (State.assignSlots n s) := by
  induction n generalizing s with
  | zero => exact .refl s
  | succ n ih => exact (State.assignSlot_evolves s).trans (ih _)

/-! ### Views -/

theorem State.view?_some_pair {s : State} {p : Nat} {v : View} (h : s.view? p = some v) : v.pair = p := by
  simpa using List.find?_some h

theorem State.grantEntries_evolves (s : State) (v : View) : Evolves loose s (s.grantEntries v) := by
  unfold State.grantEntries
  generalize v.ownSlots = l
  induction l generalizing s with
  | nil => exact .refl s
  | cons a l ih =>
    refine Evolves.trans ?_ (ih _)
    simp only
    split
    · exact .job s _ _
    · exact .refl s

theorem State.viewTo_evolves (s : State) (p : Nat) (st : ViewState)
    (hs : loose ∨ ∀ v, s.view? p = some v → v.peerRole.isSome = true → v.state.settlesAs st) :
    Evolves loose s (s.viewTo p st).1 := by
  unfold State.viewTo
  split
  · exact .refl s
  · rename_i v hv
    split
    · exact .refl s
    · refine Evolves.trans (.moved s v st ?_ ?_) (State.grantEntries_evolves _ _)
      · rw [State.view?_some_pair hv]; exact hv
      · rename_i hne
        refine hs.imp_right fun h hp => ?_
        have hst := h v hv hp
        refine ⟨?_, ?_⟩
        · unfold View.goTo
          split <;> exact hst
        · have hn : st ≠ .queued ∧ st ≠ .ownWait ∧ v.state ≠ .ownWait := by
            cases hq : v.state <;> rw [hq] at hst hne <;> simp only [ViewState.settlesAs] at hst
            all_goals first
              | exact absurd hst.symm hne
              | (rcases hst with rfl | rfl <;> simp)
          unfold View.goTo
          split <;> simp [hn.1, hn.2]

theorem State.markPassed_evolves (s : State) (sl : Slot) : Evolves loose s (s.markPassed sl) := by
  unfold State.markPassed
  simp only
  split
  · exact .job s _ _
  · exact .refl s

theorem State.foldl_markPassed_evolves (l : List Slot) (s : State) : Evolves loose s (l.foldl State.markPassed s) := by
  induction l generalizing s with
  | nil => exact .refl s
  | cons a l ih => exact (State.markPassed_evolves s a).trans (ih _)

@[simp] theorem State.markPassed_clu (s : State) (sl : Slot) : (s.markPassed sl).clu = s.clu := by
  unfold State.markPassed; simp only; split <;> rfl

@[simp] theorem State.foldl_markPassed_clu (l : List Slot) (s : State) : (l.foldl State.markPassed s).clu = s.clu := by
  induction l generalizing s with
  | nil => rfl
  | cons a l ih => simp [ih]

theorem State.view?_of_clu {s t : State} (h : t.clu = s.clu) (p : Nat) : t.view? p = s.view? p := by simp [State.view?, h]

/-- A self pair's view may change in any step. -/
theorem State.self_viewTo_evolves (s : State) (p : Nat) (st : ViewState)
    (h : ∀ v, s.view? p = some v → v.peerRole = none) : Evolves loose s (s.viewTo p st).1 :=
  State.viewTo_evolves s p st (.inr fun v hv hp => by simp [h v hv] at hp)

theorem View.peerRole_self {v : View} {sb : Slot} {b : Band} (h : v.other = .self sb b) : v.peerRole = none := by
  simp [View.peerRole, h]

theorem State.release_evolves (s : State) (p : Nat) : Evolves loose s (s.release p).1 := by
  unfold State.release
  split
  · exact .refl s
  · rename_i v hv
    have hm := State.foldl_markPassed_evolves (loose := loose) v.ownSlots s
    simp only
    split
    · split
      · exact hm.trans (State.handPassage_evolves _ _ _ _)
      · exact hm
    · rename_i sb b ho
      have hself : ∀ w, (v.ownSlots.foldl State.markPassed s).view? p = some w → w.peerRole = none := by
        intro w hw
        rw [State.view?_of_clu (State.foldl_markPassed_clu _ _), hv] at hw
        cases hw
        exact View.peerRole_self ho
      split
      · exact hm
      · split
        · split
          · exact hm.trans (State.self_viewTo_evolves _ _ _ hself)
          · exact hm.trans (State.self_viewTo_evolves _ _ _ hself)
        · exact hm

theorem State.decline_evolves (s : State) (v : View) (r : Reason) (hv : s.view? v.pair = some v) :
    Evolves loose s (s.decline v r).1 := by
  unfold State.decline
  split
  · split
    · exact State.handPassage_evolves _ _ _ _
    · exact .refl s
  · rename_i sb b ho
    split
    · exact .refl s
    · refine Evolves.selfRecord s _ _ (fun _ => ⟨rfl, rfl, rfl, rfl, rfl⟩) fun w hw => ?_
      rw [hv] at hw
      cases hw
      exact View.peerRole_self ho

theorem State.evalYield_evolves (s : State) (p : Nat) : Evolves loose s (s.evalYield p).1 := by
  unfold State.evalYield
  split
  · exact .refl s
  · rename_i v hv
    split
    · exact .refl s
    · rename_i h _
      have hm := State.markPassed_evolves (loose := loose) s h
      have hw : (s.markPassed h).view? v.pair = some v := by
        rw [State.view?_of_clu (State.markPassed_clu s h), State.view?_some_pair hv]; exact hv
      simp only
      split
      · exact hm
      · split
        · split
          · exact hm
          · split
            · exact hm.trans (State.decline_evolves _ _ _ hw)
            · exact hm
        · split
          · exact hm
          · split
            · exact hm
            · split
              · exact hm.trans (State.decline_evolves _ _ _ hw)
              · exact hm.trans (Evolves.note _ _ _ (fun _ => ⟨rfl, rfl, rfl, rfl, rfl, rfl, rfl⟩))

/-! ### Claims -/

theorem State.claimInConflict_evolves (s : State) (sl : Slot) (v : View) : Evolves loose s (s.claimInConflict sl v).1 := by
  unfold State.claimInConflict
  split
  · exact .refl s
  · split
    · split <;> exact .refl s
    · exact .refl s

theorem State.claimOpen_evolves (s : State) (sl : Slot) (p : Nat) {v : View} (hv : s.view? p = some v)
    (hst : v.state = .opened ∨ v.state = .pending) : Evolves loose s (s.claimOpen sl p).1 := by
  unfold State.claimOpen
  refine ((Evolves.job s sl _).trans (State.viewTo_evolves _ p .pending (.inr ?_))).trans (State.handPassage_evolves _ _ _ _)
  intro w hw _
  rw [State.view?_setJob, hv] at hw
  cases hw
  rcases hst with h | h <;> simp [h, ViewState.settlesAs]

theorem View.enterClaim_frame (x : SelfAxis) (st : Standing) (v : View) :
    (v.enterClaim x st).pair = v.pair ∧ (v.enterClaim x st).slot = v.slot ∧ (v.enterClaim x st).band = v.band
      ∧ (v.enterClaim x st).other = v.other ∧ (v.enterClaim x st).state = v.state ∧ (v.enterClaim x st).waiter = v.waiter
      ∧ (v.enterClaim x st).waitTimer = v.waitTimer := by
  cases x <;> exact ⟨rfl, rfl, rfl, rfl, rfl, rfl, rfl⟩

theorem View.dropClaim_frame (x : SelfAxis) (v : View) :
    (v.dropClaim x).pair = v.pair ∧ (v.dropClaim x).slot = v.slot ∧ (v.dropClaim x).band = v.band
      ∧ (v.dropClaim x).other = v.other ∧ (v.dropClaim x).state = v.state ∧ (v.dropClaim x).waiter = v.waiter
      ∧ (v.dropClaim x).waitTimer = v.waitTimer := by
  cases x <;> exact ⟨rfl, rfl, rfl, rfl, rfl, rfl, rfl⟩

theorem State.decideEntry_evolves (s : State) (sl : Slot) (p : Nat) : Evolves loose s (s.decideEntry sl p).1 := by
  unfold State.decideEntry
  simp only
  split
  · split
    · exact .refl s
    · rename_i v hv
      split
      · split
        · exact .job s _ _
        · split
          · exact State.claimInConflict_evolves _ _ _
          · exact Evolves.note s _ _ (fun w => View.enterClaim_frame _ _ w)
      · split
        · exact .refl s
        · split
          · exact .job s _ _
          · exact .job s _ _
          · rename_i hst
            split
            · exact .refl s
            · split
              · exact State.claimOpen_evolves _ _ _ hv (.inl hst)
              · exact .recordedDue _ _ _
          · rename_i hst
            split
            · exact .refl s
            · split
              · exact State.claimOpen_evolves _ _ _ hv (.inr hst)
              · exact .recordedDue _ _ _
          · split
            · exact .refl s
            · split
              · exact (Evolves.job s _ _).trans (State.handPassage_evolves _ _ _ _)
              · exact .recordedDue _ _ _
          · exact .job s _ _
          · exact .refl s
          · exact State.claimInConflict_evolves _ _ _
          · exact .refl s
          · exact .refl s
  · exact .refl s

theorem State.serveDue_evolves (s : State) (p : Nat) : Evolves loose s (s.serveDue p) := by
  unfold State.serveDue
  split
  · exact .refl s
  · split
    · exact .refl s
    · split
      · exact (Evolves.record s p (fun w => { w with cedeDue := false, waitTimer := none })
          (fun _ => ⟨rfl, rfl, rfl, rfl, rfl⟩) (fun _ => ⟨rfl, .inr rfl⟩)).trans
          (State.handPassage_evolves _ _ _ _)
      · split
        · split
          · exact State.serveDueStake_evolves s p
          · exact .clearedStake s p
        · exact .refl s

theorem State.serve_evolves (s : State) (p : Nat) : Evolves loose s (s.serve p).1 := by
  unfold State.serve
  split
  · exact .refl s
  · split
    · exact .refl s
    · exact State.serveDue_evolves s p

/-- An effect that evolves the state, followed by the serving of what waited (R38), evolves it. -/
theorem Effect.thenServe_evolves {s : State} {e : Effect} (h : Evolves loose s e.1) (p : Nat) :
    Evolves loose s (e.thenServe p).1 :=
  h.trans (State.serveDue_evolves e.1 p)

theorem State.loseFlight_evolves (s : State) (p : Nat) : Evolves loose s (s.loseFlight p).1 := by
  have hu := Evolves.note (loose := loose) s p (fun w => { w with inFlight := none }) (fun _ => ⟨rfl, rfl, rfl, rfl, rfl, rfl, rfl⟩)
  unfold State.loseFlight
  refine Effect.thenServe_evolves ?_ p
  split
  · rename_i w hw
    split
    · rename_i hp
      refine hu.trans (State.viewTo_evolves _ _ _ (.inr ?_))
      intro w' hw' _
      rw [hw] at hw'
      cases hw'
      simp [hp, ViewState.settlesAs]
    · exact hu
  · exact hu

theorem State.withdrawFlight_evolves (s : State) (p : Nat) : Evolves loose s (s.withdrawFlight p).1 := by
  unfold State.withdrawFlight
  split
  · exact Evolves.trans (.due s _) (State.loseFlight_evolves _ _)
  · split
    · exact .owedCede s p
    · split
      · exact Evolves.trans (.general s _ (.inl (List.length_filter_le _ _))) (State.loseFlight_evolves _ _)
      · exact .owedCede s p

theorem State.withdrawClaim_evolves (s : State) (sl : Slot) (p : Nat) (st : EntryStatus) (v0 : ViewState) :
    Evolves loose s (s.withdrawClaim sl p st v0).1 := by
  unfold State.withdrawClaim
  split
  · exact .refl s
  · rename_i v hv
    split
    · rename_i sb b ho
      refine Evolves.selfRecord s _ _ (fun w => ?_) (fun w hw => ?_)
      · obtain ⟨h1, h2, h3, h4, h5, _, _⟩ := View.dropClaim_frame (v.selfAxis sl) w
        split
        · exact ⟨h1, h2, h3, h4, h5⟩
        · exact ⟨h1, h2, h3, h4, h5⟩
      · rw [hv] at hw
        cases hw
        exact View.peerRole_self ho
    · split
      · exact .droppedDue _ _ _
      · split
        · exact State.withdrawFlight_evolves s p
        · split
          · have hu := Evolves.record (loose := loose) s p (fun w => { w with waitTimer := none })
              (fun _ => ⟨rfl, rfl, rfl, rfl, rfl⟩) (fun _ => ⟨rfl, .inr rfl⟩)
            split
            · exact hu
            · split
              · exact hu.trans (State.handPassage_evolves _ _ _ _)
              · exact hu.trans (.owedCede _ _)
          · split
            · rename_i hp
              refine State.viewTo_evolves _ _ _ (.inr ?_)
              intro w hw _
              rw [hv] at hw
              cases hw
              simp [hp, ViewState.settlesAs]
            · exact .refl s

/-! ### CONFLICT and the derivation of views -/

theorem State.enterConflict_evolves (s : State) (p : Nat) (h : loose) : Evolves loose s (s.enterConflict p).1 := by
  unfold State.enterConflict
  split
  · exact .refl s
  · exact State.viewTo_evolves _ _ _ (.inl h)

theorem State.retest_evolves (s : State) (p : Nat) (h : loose) : Evolves loose s (s.retest p).1 := by
  unfold State.retest
  split
  · exact .refl s
  · split
    · split
      · split
        · exact .refl s
        · split
          · exact .refl s
          · exact State.viewTo_evolves _ _ _ (.inl h)
          · exact State.viewTo_evolves _ _ _ (.inl h)
          · exact State.viewTo_evolves _ _ _ (.inl h)
      · split
        · exact .refl s
        · exact State.viewTo_evolves _ _ _ (.inl h)
        · exact State.viewTo_evolves _ _ _ (.inl h)
        · exact State.viewTo_evolves _ _ _ (.inl h)
    · exact .refl s

theorem State.requestStake_evolves (s : State) (p : Nat) : Evolves loose s (s.requestStake p) := by
  unfold State.requestStake
  split
  · exact .refl s
  · split
    · exact State.handPassage_evolves _ _ _ _
    · exact .owedStake s p

theorem State.derive_evolves (s : State) (p : Nat) (h : loose) : Evolves loose s (s.derive p).1 := by
  unfold State.derive
  split
  · exact .refl s
  · split
    · split
      · exact State.viewTo_evolves _ _ _ (.inl h)
      · split
        · exact State.enterConflict_evolves _ _ h
        · split
          · exact State.viewTo_evolves _ _ _ (.inl h)
          · split
            · exact (State.viewTo_evolves _ _ _ (.inl h)).trans (State.requestStake_evolves _ _)
            · exact State.viewTo_evolves _ _ _ (.inl h)
    · split
      · exact State.enterConflict_evolves _ _ h
      · exact State.viewTo_evolves _ _ _ (.inl h)
      · exact State.viewTo_evolves _ _ _ (.inl h)
      · exact State.viewTo_evolves _ _ _ (.inl h)

theorem overAll_evolves {α : Type} {f : State → α → Effect} (hf : ∀ s x, Evolves loose s (f s x).1) (ps : List α) (s : State) :
    Evolves loose s (overAll f ps s).1 := by
  induction ps generalizing s with
  | nil => exact .refl s
  | cons p ps ih => exact (hf s p).trans (ih _)

theorem State.view?_updView (s : State) (p : Nat) (f : View → View) (hf : ∀ v, (f v).pair = v.pair) (q : Nat) :
    (s.updView p f).view? q = (s.view? q).map (fun v => if v.pair = p then f v else v) := by
  simp only [State.view?, State.updView, List.find?_map]
  congr 2
  funext u
  simp only [Function.comp]
  split <;> simp [hf]

theorem State.grantSelf_evolves (s : State) (p : Nat) (x : SelfAxis) (h : ∀ v, s.view? p = some v → v.peerRole = none) :
    Evolves loose s (s.grantSelf p x).1 := by
  unfold State.grantSelf
  refine (Evolves.note s p _ (View.dropClaim_frame x)).trans (State.self_viewTo_evolves _ _ _ ?_)
  intro w hw
  rw [State.view?_updView _ _ _ (fun v => (View.dropClaim_frame x v).1)] at hw
  obtain ⟨v, hv, rfl⟩ := Option.map_eq_some_iff.mp hw
  have := h v hv
  split
  · simpa [View.peerRole, (View.dropClaim_frame x v).2.2.2.1] using this
  · exact this

theorem State.waitSelf_evolves (s : State) (v : View) (x : SelfAxis) (st : Standing)
    (h : ∀ w, s.view? v.pair = some w → w.peerRole = none) : Evolves loose s (s.waitSelf v x st).1 := by
  unfold State.waitSelf
  refine Evolves.trans ?_ (.job _ _ _)
  refine .view s v.pair _ (fun w => ?_) (fun w => (View.dropClaim_frame x w).2.2.2.2.1) (.inr fun w hw hp => by simp [h w hw] at hp)
  obtain ⟨h1, h2, h3, h4, _⟩ := View.dropClaim_frame x w
  exact ⟨h1, h2, h3, h4⟩

theorem View.goTo_frame (v : View) (st : ViewState) :
    (v.goTo st).pair = v.pair ∧ (v.goTo st).slot = v.slot ∧ (v.goTo st).band = v.band ∧ (v.goTo st).other = v.other
      ∧ (v.goTo st).state = st := by
  unfold View.goTo; split <;> simp_all

/-- A moved view changes the records of its pair, and the envelopes of its own axes. -/
theorem State.moveView_eq (s : State) (v : View) (st : ViewState) :
    ∃ es, s.moveView v st =
      { s.updView v.pair (fun w => w.goTo st) with
        clu := { (s.updView v.pair (fun w => w.goTo st)).clu with envelopes := es } } := by
  unfold State.moveView
  generalize s.updView v.pair (fun w => w.goTo st) = t
  generalize v.ownSlots = l
  induction l generalizing t with
  | nil => exact ⟨t.clu.envelopes, rfl⟩
  | cons a l ih =>
    obtain ⟨es, h⟩ := ih (t.buildEnvelope a)
    exact ⟨es, h⟩

theorem State.view?_moveView (s : State) (v : View) (st : ViewState) (q : Nat) :
    (s.moveView v st).view? q = (s.view? q).map (fun w => if w.pair = v.pair then w.goTo st else w) := by
  obtain ⟨es, h⟩ := State.moveView_eq s v st
  rw [h]
  exact State.view?_updView s v.pair _ (fun w => (View.goTo_frame w st).1) q

/-- The peer of a view record is fixed: no update of a step changes `other`. -/
theorem Evolves.other_kept {s t : State} (h : Evolves loose s t) (p : Nat) :
    (t.view? p).map View.other = (s.view? p).map View.other := by
  induction h with
  | refl s => rfl
  | trans _ _ ih1 ih2 => exact ih2.trans ih1
  | activity s => unfold State.noteActivity; split <;> rfl
  | view s q f hid hg hs =>
    rw [State.view?_updView _ _ _ (fun v => (hid v).1)]
    cases s.view? p with
    | none => rfl
    | some v => simp only [Option.map_some]; split <;> simp [hid]
  | moved s v st hv hs =>
    rw [State.view?_moveView]
    cases s.view? p with
    | none => rfl
    | some w => simp only [Option.map_some]; split <;> simp [View.goTo_frame]
  | wake s =>
    unfold State.takeActivity
    split
    · simp only
      split
      · rfl
      · split <;> rfl
    · rfl
  | _ => rfl

theorem Evolves.peerRole_kept {s t : State} (h : Evolves loose s t) (p : Nat) :
    (t.view? p).map View.peerRole = (s.view? p).map View.peerRole := by
  have := h.other_kept p
  cases hs : s.view? p <;> cases ht : t.view? p <;> simp_all [View.peerRole]

theorem State.arbitrateAxis_evolves (s : State) (p : Nat) (x : SelfAxis) (h : ∀ v, s.view? p = some v → v.peerRole = none) :
    Evolves loose s (s.arbitrateAxis p x).1 := by
  unfold State.arbitrateAxis
  split
  · exact .refl s
  · split
    · exact .refl s
    · split
      · exact State.grantSelf_evolves _ _ _ h
      · split
        · exact (Evolves.note s p _ (View.dropClaim_frame x)).trans (.job _ _ _)
        · split
          · rename_i w hw _ _ _ _ _ _
            exact State.waitSelf_evolves _ _ _ _ (by rw [State.view?_some_pair hw]; exact h)
          · exact .refl s

theorem State.arbitrate_evolves (s : State) (p : Nat) : Evolves loose s (s.arbitrate p).1 := by
  unfold State.arbitrate
  split
  · exact .refl s
  · rename_i v hv
    split
    · exact .refl s
    · rename_i sb b ho
      have h1 := State.arbitrateAxis_evolves (loose := loose) s p v.firstAxis (fun w hw => by
        rw [hv] at hw; cases hw; exact View.peerRole_self ho)
      refine Evolves.andThen h1 (State.arbitrateAxis_evolves _ _ _ fun w hw => ?_)
      have := h1.peerRole_kept p
      rw [hv, hw] at this
      simpa [View.peerRole, ho] using this

end Sys2Proof.Machine
end

