-- ==== Sys2Proof/Laws/DriveHandlers.lean ====
section
/-! SUPPORT. The drive units' and the supply monitor's answers are made of the updates of `Evolves`. -/

namespace Sys2Proof.Machine

variable {loose : Prop}

/-! ### Updates of a drive record -/

/-- An update of bookkeeping fields alone. -/
theorem DriveKept.same {s : State} {sl : Slot} {d : Drive} (hc : d.count = (s.drive sl).count)
    (hr : d.referenced = (s.drive sl).referenced) (hd : d.disabled = (s.drive sl).disabled) (hs : d.span = (s.drive sl).span)
    (ha : d.axis = (s.drive sl).axis) (hu : d.duty = (s.drive sl).duty) (hb : d.brake = (s.drive sl).brake)
    (hl : d.loop = (s.drive sl).loop) (hk : d.lock = (s.drive sl).lock) (ho : d.close = (s.drive sl).close)
    (hv : d.vset = (s.drive sl).vset) (hj : d.jobTimer = (s.drive sl).jobTimer) (ht : d.stallTimer = (s.drive sl).stallTimer)
    (hbl : d.blankingTimer = (s.drive sl).blankingTimer) : DriveKept s sl d where
  count := hc
  referenced := hr
  range := by simp only [Drive.hasRange, hr, hd, hs]
  span := fun _ => hs
  sound := by
    simp only [Drive.sound, Drive.outputsSafe, Drive.loopSound, Drive.timersSound, ha, hu, hb, hl, hk, ho, hv, hj, ht, hbl]; exact id
  supply := by rw [ha]; exact fun h => .inl h

/-- An update that turns the drive off. -/
theorem DriveKept.turnedOff {s : State} {sl : Slot} {d : Drive} (hc : d.count = (s.drive sl).count)
    (hr : d.referenced = (s.drive sl).referenced) (hd : d.disabled = (s.drive sl).disabled) (hs : d.span = (s.drive sl).span)
    (ha : d.axis ≠ .driving) (hu : d.duty = 0) (hb : d.brake = true) (hl : d.loop = .seek) (hk : d.lock = false)
    (ho : d.close = 0) (hv : d.vset = 0) (hj : d.jobTimer = none) (ht : d.stallTimer = none) (hbl : d.blankingTimer = none) :
    DriveKept s sl d where
  count := hc
  referenced := hr
  range := by simp only [Drive.hasRange, hr, hd, hs]
  span := fun _ => hs
  sound := fun _ => by
    refine ⟨⟨by omega, by omega, fun _ => ⟨hu, hb⟩⟩, ⟨fun _ => ⟨hl, hk, ho, hv⟩, fun h => ?_, by omega⟩, fun _ => ⟨hj, ht, hbl⟩⟩
    rw [hk] at h; cases h
  supply := fun h => absurd h ha

theorem State.driveOff_evolves (s : State) (sl : Slot) (after : AfterBrake) : Evolves loose s (s.driveOff sl after) :=
  .drive s sl _ (.turnedOff rfl rfl rfl rfl (by simp) rfl rfl rfl rfl rfl rfl rfl rfl rfl)

@[simp] theorem State.noteActivity_drive (s : State) (sl : Slot) : s.noteActivity.drive sl = s.drive sl := by
  unfold State.noteActivity; split <;> rfl

@[simp] theorem State.noteActivity_adu (s : State) : s.noteActivity.adu = s.adu := by unfold State.noteActivity; split <;> rfl
@[simp] theorem State.noteActivity_smon (s : State) : s.noteActivity.smon = s.smon := by unfold State.noteActivity; split <;> rfl
@[simp] theorem State.noteActivity_clu (s : State) : s.noteActivity.clu = s.clu := by unfold State.noteActivity; split <;> rfl
@[simp] theorem State.noteActivity_role (s : State) : s.noteActivity.role = s.role := by unfold State.noteActivity; split <;> rfl
@[simp] theorem State.noteActivity_supplyBars (s : State) : s.noteActivity.supplyBars = s.supplyBars := by
  simp [State.supplyBars]

theorem State.rest_evolves (s : State) (sl : Slot) (st : AxisState) (run : Option Run) (h : st ≠ .driving) :
    Evolves loose s (s.rest sl st run) := by
  unfold State.rest
  simp only
  have h1 : Evolves loose s (if (s.drive sl).axis = .idle ∧ st ≠ .idle then s.noteActivity else s) := by
    split
    · exact .activity s
    · exact .refl s
  refine (h1.trans (.drive _ sl _ ?_)).trans (.driveSet _ _ _)
  split
  · exact .turnedOff (by simp [Drive.off]) (by simp [Drive.off]) (by simp [Drive.off]) (by simp [Drive.off]) h rfl rfl rfl rfl rfl
      rfl rfl rfl rfl
  · exact .turnedOff rfl rfl rfl rfl h rfl rfl rfl rfl rfl rfl rfl rfl rfl

@[simp] theorem State.rest_job (s : State) (sl x : Slot) (st : AxisState) (run : Option Run) :
    (s.rest sl st run).job x = s.job x := by
  unfold State.rest State.noteActivity; simp only; repeat' split
  all_goals rfl

@[simp] theorem State.rest_rcs (s : State) (sl : Slot) (st : AxisState) (run : Option Run) : (s.rest sl st run).rcs = s.rcs := by
  unfold State.rest State.noteActivity; simp only; repeat' split
  all_goals rfl

@[simp] theorem State.rest_drive (s : State) (sl x : Slot) (st : AxisState) (run : Option Run) :
    (s.rest sl st run).drive x =
      if sl = x then { (s.drive sl).off with axis := st, brakeTimer := none, afterBrake := .idle, run := run } else s.drive x := by
  unfold State.rest State.noteActivity; simp only; repeat' split
  all_goals simp_all [State.drive, State.setDrive, State.setDriveSet]

theorem State.endRun_evolves (s : State) (sl : Slot) (e : RunEnd) : Evolves loose s (s.endRun sl e).1 :=
  State.rest_evolves s sl .idle none (by simp)

/-! ### Where a run drives -/

/-- Every kind creeps (R7). -/
theorem creep_pos (k : Kind) : 0 < (params k).creep := by cases k <;> decide

theorem State.enterDriving_evolves (s : State) (sl : Slot) (r : Run) (hb : s.supplyBars = false) :
    Evolves loose s (s.enterDriving sl r).1 := by
  unfold State.enterDriving
  split
  · exact .refl s
  · simp only
    have h1 : Evolves loose s (if (s.drive sl).axis = .idle then s.noteActivity else s) := by
      split
      · exact .activity s
      · exact .refl s
    refine (h1.trans (.drive _ sl _ ?_)).trans (.driveSet _ _ _)
    have hd : (if (s.drive sl).axis = .idle then s.noteActivity else s).drive sl = s.drive sl := by split <;> simp
    have hs : (if (s.drive sl).axis = .idle then s.noteActivity else s).supplyBars = false := by split <;> simp [hb]
    exact
      { count := by rw [hd], referenced := by rw [hd], range := by rw [hd]; rfl, span := fun _ => by rw [hd]
        sound := fun _ => by
          refine ⟨⟨by simp [Config.startDuty], by simp [Config.startDuty], fun h => absurd rfl h⟩,
            ⟨fun h => absurd rfl h, fun h => (by cases h), (creep_pos _).le⟩, fun h => absurd rfl h⟩
        supply := fun _ => .inr hs }

theorem State.tryDriving_evolves (s : State) (sl : Slot) (r : Run) : Evolves loose s (s.tryDriving sl r).1 := by
  unfold State.tryDriving
  split
  · split
    · exact .drive s sl _ (.same rfl rfl rfl rfl rfl rfl rfl rfl rfl rfl rfl rfl rfl rfl)
    · exact State.endRun_evolves _ _ _
  · rename_i h
    exact State.enterDriving_evolves _ _ _ (by simpa using h)

theorem State.testRun_evolves (s : State) (sl : Slot) (r : Run) : Evolves loose s (s.testRun sl r).1 := by
  unfold State.testRun
  split
  · exact .refl s
  · split
    · exact State.tryDriving_evolves _ _ _
    · split
      · exact State.endRun_evolves _ _ _
      · split
        · exact State.rest_evolves _ _ _ _ (by simp)
        · exact State.endRun_evolves _ _ _

theorem State.setReferenced_drive (s : State) (sl x : Slot) (b : Bool) :
    (s.setReferenced sl b).drive x = if sl = x then { s.drive sl with referenced := b } else s.drive x := by
  cases sl <;> cases x <;> rfl

theorem State.openRun_evolves (s : State) (sl : Slot) (r : Run) : Evolves loose s (s.openRun sl r) := by
  unfold State.openRun
  split
  · exact .unreferenced s sl
  · exact .refl s

theorem State.beginRun_evolves (s : State) (sl : Slot) (r : Run) : Evolves loose s (s.beginRun sl r).1 := by
  unfold State.beginRun
  split
  · exact (State.openRun_evolves s sl r).trans (State.endRun_evolves _ _ _)
  · exact (State.openRun_evolves s sl r).trans (State.testRun_evolves _ _ _)

theorem State.beginRelief_evolves (s : State) (sl : Slot) : Evolves loose s (s.beginRelief sl).1 := by
  unfold State.beginRelief
  exact (Evolves.job s sl _).trans (State.testRun_evolves _ _ _)

theorem State.dropWaiting_evolves (s : State) (sl : Slot) : Evolves loose s (s.dropWaiting sl).1 := by
  unfold State.dropWaiting
  split
  · exact .drive s sl { s.drive sl with waitingRun := none } (.same rfl rfl rfl rfl rfl rfl rfl rfl rfl rfl rfl rfl rfl rfl)
  · exact .refl s

theorem State.joinBraking_evolves (s : State) (sl : Slot) (r : Run) : Evolves loose s (s.joinBraking sl r).1 := by
  unfold State.joinBraking
  split
  · exact State.tryDriving_evolves _ _ _
  · exact .drive s sl { s.drive sl with run := some r, afterBrake := .joined }
      (.same rfl rfl rfl rfl rfl rfl rfl rfl rfl rfl rfl rfl rfl rfl)

theorem State.takeBraking_evolves (s : State) (sl : Slot) (r : Run) : Evolves loose s (s.takeBraking sl r).1 := by
  unfold State.takeBraking
  refine Evolves.andThen (State.dropWaiting_evolves s sl) ?_
  generalize (s.dropWaiting sl).1 = t
  split
  · exact (State.openRun_evolves t sl r).trans (State.joinBraking_evolves _ _ _)
  · exact .drive t sl { t.drive sl with waitingRun := some r } (.same rfl rfl rfl rfl rfl rfl rfl rfl rfl rfl rfl rfl rfl rfl)

theorem State.takeRun_evolves (s : State) (sl : Slot) (r : Run) : Evolves loose s (s.takeRun sl r).1 := by
  unfold State.takeRun
  have h1 : Evolves loose s (s.setDrive sl { s.drive sl with handed := none }) :=
    .drive s sl _ (.same rfl rfl rfl rfl rfl rfl rfl rfl rfl rfl rfl rfl rfl rfl)
  refine h1.trans ?_
  generalize s.setDrive sl { s.drive sl with handed := none } = t
  have same : ∀ (t : State) (run waiting : Option Run) (a : AfterBrake),
      Evolves loose t (t.setDrive sl { t.drive sl with run := run, waitingRun := waiting, afterBrake := a }) :=
    fun t run waiting a => .drive t sl _ (.same rfl rfl rfl rfl rfl rfl rfl rfl rfl rfl rfl rfl rfl rfl)
  simp only
  split
  · exact .refl t
  · exact State.beginRun_evolves _ _ _
  · exact (same t none _ _).trans (State.beginRun_evolves _ _ _)
  · exact State.takeBraking_evolves _ _ _
  · exact ((State.driveOff_evolves (loose := loose) t sl .idle).trans (same _ none _ _)).trans (State.takeBraking_evolves _ _ _)
  · split
    · exact Evolves.trans
        (.drive t sl { (t.drive sl).off with
            axis := .braking, brakeTimer := some Config.brakeTime, afterBrake := .idle, waitingRun := some r }
          (.turnedOff rfl rfl rfl rfl (by simp) rfl rfl rfl rfl rfl rfl rfl rfl rfl)) (.driveSet _ _ _)
    · exact .refl t

theorem State.beginWaiting_evolves (s : State) (sl : Slot) : Evolves loose s (s.beginWaiting sl).1 := by
  unfold State.beginWaiting
  split
  · exact .refl s
  · refine Evolves.trans ?_ (State.beginRun_evolves _ _ _)
    exact .drive s sl { s.drive sl with waitingRun := none } (.same rfl rfl rfl rfl rfl rfl rfl rfl rfl rfl rfl rfl rfl rfl)

theorem State.onEnvelope_evolves (s : State) (sl : Slot) : Evolves loose s (s.onEnvelope sl).1 := by
  unfold State.onEnvelope
  simp only
  split
  · split
    · exact .drive s sl _ (.same rfl rfl rfl rfl rfl rfl rfl rfl rfl rfl rfl rfl rfl rfl)
    · exact State.driveOff_evolves _ _ _
  · exact State.testRun_evolves _ _ _
  · exact .refl s

theorem State.handEnvelope_evolves (s : State) (sl : Slot) : Evolves loose s (s.handEnvelope sl).1 :=
  Evolves.trans (.rebuilt s sl) (State.onEnvelope_evolves _ _)

theorem clampInt_bounds (x : Int) : 0 ≤ clampInt 0 1000 x ∧ clampInt 0 1000 x ≤ 1000 := by
  unfold clampInt; omega

/-- The setpoint of an interval is at least creep (R28). -/
theorem State.nextSetpoint_pos (s : State) (sl : Slot) (k : Kind) (r : Run) : 0 < s.nextSetpoint sl k r := by
  have hc := creep_pos k
  unfold State.nextSetpoint
  simp only
  split
  · exact hc
  · unfold setpoint
    simp only
    split <;> omega

/-- LOCK is set only in TRACK (R96). -/
theorem Drive.modeAfter_lock (d : Drive) (r : Run) (e v : Int) (h : d.lock = true → d.loop = .track)
    (hl : (d.modeAfter r e v).2.1 = true) : (d.modeAfter r e v).1 = .track := by
  unfold Drive.modeAfter modeTest at *
  split <;> (try split) <;> (try split) <;> simp_all
  split at hl <;> simp_all

theorem State.driveLoop_evolves (s : State) (sl : Slot) (k : Kind) (r : Run) (h : (s.drive sl).axis = .driving) :
    Evolves loose s (s.driveLoop sl k r) := by
  unfold State.driveLoop
  simp only
  split
  · refine .drive s sl _ ⟨rfl, rfl, rfl, fun _ => rfl, fun hs => ?_, fun _ => .inl h⟩
    refine ⟨⟨(clampInt_bounds _).1, (clampInt_bounds _).2, fun hn => absurd h hn⟩,
      ⟨fun hn => absurd h hn, ?_, (State.nextSetpoint_pos _ _ _ _).le⟩, fun hn => absurd h hn⟩
    exact Drive.modeAfter_lock _ _ _ _ hs.2.1.2.1
  · exact State.driveOff_evolves _ _ _

theorem State.shiftPulses_evolves (s : State) (sl : Slot) : Evolves loose s (s.shiftPulses sl) :=
  .drive s sl _ (.same rfl rfl rfl rfl rfl rfl rfl rfl rfl rfl rfl rfl rfl rfl)

theorem State.aduControl_evolves (s : State) (sl : Slot) : Evolves loose s (s.aduControl sl).1 := by
  unfold State.aduControl
  split
  · exact .refl s
  · simp only
    refine Evolves.trans ?_ (State.shiftPulses_evolves _ _)
    have h1 : Evolves loose s ((s.setEnvelope sl (s.envelopeFor sl)).markPassed sl) :=
      Evolves.trans (.envelope s sl _ (.inl rfl)) (State.markPassed_evolves _ _)
    refine h1.trans ?_
    generalize (s.setEnvelope sl (s.envelopeFor sl)).markPassed sl = t
    split
    · split
      · exact .refl t
      · exact State.takeRun_evolves _ _ _
    · split
      · rename_i ha _
        split
        · exact State.driveLoop_evolves _ _ _ _ ha
        · exact State.driveOff_evolves _ _ _
      · exact State.testRun_evolves _ _ _
      · exact .refl t

/-! ### The supply -/

theorem State.stopDrives_evolves (s : State) : Evolves loose s s.stopDrives := by
  unfold State.stopDrives
  generalize allSlots = l
  induction l generalizing s with
  | nil => exact .refl s
  | cons a l ih =>
    refine Evolves.trans ?_ (ih _)
    simp only
    split
    · exact State.driveOff_evolves _ _ _
    · exact .refl s

theorem State.stopDrives_withSmon (s : State) (m : Smon) :
    State.stopDrives { s with smon := m } = { s.stopDrives with smon := m } := by
  unfold State.stopDrives
  generalize allSlots = l
  induction l generalizing s with
  | nil => rfl
  | cons a l ih =>
    simp only [List.foldl_cons]
    have hd : State.drive { s with smon := m } a = s.drive a := rfl
    rw [hd]
    split
    · exact ih (s.driveOff a .retest)
    · exact ih s

@[simp] theorem State.stopDrives_smon (s : State) : s.stopDrives.smon = s.smon := by
  unfold State.stopDrives
  generalize allSlots = l
  induction l generalizing s with
  | nil => rfl
  | cons a l ih =>
    simp only [List.foldl_cons]
    split
    · exact ih _
    · exact ih s

@[simp] theorem State.stopDrives_vsense (s : State) : s.stopDrives.vsense = s.vsense := by
  unfold State.stopDrives
  generalize allSlots = l
  induction l generalizing s with
  | nil => rfl
  | cons a l ih =>
    simp only [List.foldl_cons]
    split
    · exact ih _
    · exact ih s

/-- No drive is left DRIVING (R98). -/
theorem State.stopDrives_axis (s : State) (sl : Slot) : (s.stopDrives.drive sl).axis ≠ .driving := by
  have key : ∀ (l : List Slot) (t : State) (x : Slot), x ∈ l ∨ (t.drive x).axis ≠ .driving →
      ((l.foldl (fun t sl => if (t.drive sl).axis = .driving then t.driveOff sl .retest else t) t).drive x).axis ≠ .driving := by
    intro l
    induction l with
    | nil => intro t x h; simpa using h
    | cons a l ih =>
      intro t x h
      simp only [List.foldl_cons]
      refine ih _ _ ?_
      by_cases hx : x = a
      · subst hx
        right
        split
        · simp [State.driveOff]
        · assumption
      · rcases h with h | h
        · left
          simpa [hx] using h
        · right
          split
          · simp [State.driveOff, Ne.symm hx, h]
          · exact h
  exact key allSlots s sl (.inl (by cases sl <;> simp [allSlots]))

theorem applySample_ne_unknown (l : Level) (n v : Nat) : (applySample l n v).1 ≠ .unknown := by
  unfold applySample levelAfter
  cases l <;> simp only <;> (repeat' split) <;> simp

theorem State.takeSample_evolves (s : State) (period : Nat) : Evolves loose s (s.takeSample period).1 := by
  unfold State.takeSample
  simp only
  split
  · rename_i h
    rw [State.stopDrives_withSmon]
    refine (State.stopDrives_evolves s).trans (.sample s.stopDrives _ ?_ ?_ ?_)
    · exact fun _ _ sl => State.stopDrives_axis s sl
    · exact applySample_ne_unknown _ _ _
    · simp
  · rename_i h
    refine .sample s _ ?_ (applySample_ne_unknown _ _ _) rfl
    intro hc hn
    exact absurd ⟨hc, hn⟩ h

end Sys2Proof.Machine
end

