-- ==== Sys2Proof/Laws/MoveHandlers.lean ====
section
/-! SUPPORT. The move controller's answers are made of the updates of `Evolves`. -/

namespace Sys2Proof.Machine

variable {loose : Prop}

theorem State.sendResult_evolves (s : State) (e : SceneEntry) : Evolves loose s (s.sendResult e) :=
  State.placeOutgoing_evolves _ _

theorem State.enterOutcome_evolves (s : State) (sl : Slot) (m : Member) (o : JobOutcome) :
    Evolves loose s (s.enterOutcome sl m o).1 := by
  unfold State.enterOutcome
  split
  · exact .refl s
  · split
    · exact .refl s
    · simp only
      split
      · exact (Evolves.scene s _ _).trans (State.sendResult_evolves _ _)
      · exact .scene s _ _
  · simp only
    split
    · exact (Evolves.scene s _ _).trans (State.sendResult_evolves _ _)
    · exact .scene s _ _

theorem State.failEntry_evolves (s : State) (sl : Slot) (p : Nat) (f : Failure) : Evolves loose s (s.failEntry sl p f).1 := by
  unfold State.failEntry
  simp only
  split
  · split
    · exact .job s _ _
    · split
      · exact .job s _ _
      · exact (Evolves.job s _ _).trans
          (.drive _ sl ((s.drive sl).cutBack _) (.same rfl rfl rfl rfl rfl rfl rfl rfl rfl rfl rfl rfl rfl rfl))
  · exact .refl s

theorem State.yieldOver_evolves (s : State) (sl : Slot) (g : JobOrigin) : Evolves loose s (s.yieldOver sl g) := by
  unfold State.yieldOver
  split
  · exact .note s _ _ (fun _ => ⟨rfl, rfl, rfl, rfl, rfl, rfl, rfl⟩)
  all_goals exact .refl s

theorem State.finishJob_evolves (s : State) (sl : Slot) (o : JobOutcome) : Evolves loose s (s.finishJob sl o).1 := by
  unfold State.finishJob
  simp only
  split
  · exact (((Evolves.droppedClaims s sl).trans (.job _ _ _)).trans (.pin _ _ _)).trans (State.yieldOver_evolves _ _ _)
  · exact .refl s

theorem State.endRequest_evolves (s : State) (sl : Slot) (o : JobOutcome) : Evolves loose s (s.endRequest sl o).1 := by
  have hm : Evolves loose s (s.setJob sl { s.job sl with cause := some o }) := .job s _ _
  unfold State.endRequest
  simp only
  split
  · split
    · exact hm
    · split
      · exact hm.trans
          (.drive _ sl { s.drive sl with handed := none } (.same rfl rfl rfl rfl rfl rfl rfl rfl rfl rfl rfl rfl rfl rfl))
      · split
        · exact hm
        · split
          · exact hm.trans (State.driveOff_evolves _ _ _)
          · split
            · exact hm.trans
                (.drive _ sl { s.drive sl with waitingRun := none } (.same rfl rfl rfl rfl rfl rfl rfl rfl rfl rfl rfl rfl rfl rfl))
            · split
              · exact .refl s
              · exact hm.trans (.drive _ sl (s.drive sl).unjoined (.same rfl rfl rfl rfl rfl rfl rfl rfl rfl rfl rfl rfl rfl rfl))
              · exact hm.trans
                  (.drive _ sl { s.drive sl with afterBrake := .ended o } (.same rfl rfl rfl rfl rfl rfl rfl rfl rfl rfl rfl rfl rfl rfl))
          · exact hm.trans (State.rest_evolves _ _ _ _ (by simp))
          · exact hm
          · exact hm
          · exact hm
  · exact .refl s

theorem State.endRequests_evolves (s : State) (sls : List Slot) (o : JobOutcome) : Evolves loose s (s.endRequests sls o).1 :=
  overAll_evolves (fun t sl => State.endRequest_evolves t sl o) sls s

/-- An end request leaves the stores, and the jobs and drives of the other slots, as they were (R113). -/
theorem State.endRequest_frame (s : State) (sl : Slot) (o : JobOutcome) :
    (s.endRequest sl o).1.rcs = s.rcs ∧
      ∀ x, x ≠ sl → (s.endRequest sl o).1.job x = s.job x ∧ (s.endRequest sl o).1.drive x = s.drive x := by
  unfold State.endRequest
  simp only
  repeat' split
  all_goals refine ⟨by first | rfl | simp, fun x hx => ?_⟩
  all_goals simp [State.driveOff, hx.symm]

/-- End requests for several jobs leave the stores, and the jobs and drives of the other slots, as they were (R113). -/
theorem State.endRequests_frame (s : State) (sls : List Slot) (o : JobOutcome) :
    (s.endRequests sls o).1.rcs = s.rcs ∧
      ∀ x, x ∉ sls → (s.endRequests sls o).1.job x = s.job x ∧ (s.endRequests sls o).1.drive x = s.drive x := by
  induction sls generalizing s with
  | nil => exact ⟨rfl, fun _ _ => ⟨rfl, rfl⟩⟩
  | cons a sls ih =>
    obtain ⟨h1, h2⟩ := s.endRequest_frame a o
    obtain ⟨k1, k2⟩ := ih (s.endRequest a o).1
    refine ⟨k1.trans h1, fun x hx => ?_⟩
    rw [List.mem_cons, not_or] at hx
    obtain ⟨ha, hs⟩ := hx
    exact ⟨(k2 x hs).1.trans (h2 x ha).1, (k2 x hs).2.trans (h2 x ha).2⟩

theorem State.startMove_evolves (s : State) (sl : Slot) (j : Job) (t : Int) : Evolves loose s (s.startMove sl j t).1 :=
  (Evolves.pin s sl false).trans (.job _ _ _)

theorem State.startBlind_evolves (s : State) (sl : Slot) (j : Job) (dir : Dir) : Evolves loose s (s.startBlind sl j dir).1 :=
  (Evolves.pin s sl false).trans (.job _ _ _)

theorem State.startReference_evolves (s : State) (sl : Slot) (j : Job) (t : Int) : Evolves loose s (s.startReference sl j t).1 :=
  (Evolves.pin s sl false).trans (.job _ _ _)

theorem State.handRun_evolves (s : State) (sl : Slot) : Evolves loose s (s.handRun sl).1 := by
  unfold State.handRun
  simp only
  split
  · exact (Evolves.job s _ _).trans
      (.drive _ sl { s.drive sl with handed := some (s.job sl).theRun } (.same rfl rfl rfl rfl rfl rfl rfl rfl rfl rfl rfl rfl rfl rfl))
  · exact .refl s

theorem State.learnCheck_evolves (s : State) (sl : Slot) : Evolves loose s (s.learnCheck sl).1 := by
  unfold State.learnCheck
  simp only
  split
  · exact (Evolves.job s _ _).trans
      (.drive _ sl { s.drive sl with handed := some (s.job sl).theRun } (.same rfl rfl rfl rfl rfl rfl rfl rfl rfl rfl rfl rfl rfl rfl))
  · exact .refl s

theorem State.startScene_evolves (s : State) (sl : Slot) (id p : Nat) (t : Int) (reference : Bool) :
    Evolves loose s (s.startScene sl id p t reference).1 := by
  unfold State.startScene
  split
  · exact .refl s
  · simp only
    split
    · exact .refl s
    · split
      · exact State.startReference_evolves _ _ _ _
      · exact State.startMove_evolves _ _ _ _

theorem State.startJog_evolves (s : State) (sl : Slot) (dir : Dir) : Evolves loose s (s.startJog sl dir).1 := by
  unfold State.startJog
  split
  · exact .refl s
  · simp only
    split
    · exact State.startMove_evolves _ _ _ _
    · exact State.startBlind_evolves _ _ _ _

theorem State.startLearn_evolves (s : State) (sl : Slot) : Evolves loose s (s.startLearn sl).1 :=
  (Evolves.pin s sl false).trans (.job _ _ _)

theorem State.startYield_evolves (s : State) (p : Nat) (sl : Slot) : Evolves loose s (s.startYield p sl).1 := by
  unfold State.startYield
  split
  · exact .refl s
  · split
    · split
      · exact State.startMove_evolves _ _ _ _
      · exact .refl s
    · exact .refl s

theorem State.startQueued_evolves (s : State) (sl : Slot) : Evolves loose s (s.startQueued sl).1 := by
  unfold State.startQueued
  split
  · exact .refl s
  · split
    · exact .refl s
    · have hq := Evolves.queued (loose := loose) s sl none
      simp only
      split
      · exact hq
      · split
        · exact hq.trans (State.startScene_evolves _ _ _ _ _ _)
        · exact hq.trans (State.startJog_evolves _ _ _)
        · exact hq.trans (State.startLearn_evolves _ _)

theorem State.takeRawCount_evolves (s : State) (sl : Slot) (n : Nat) : Evolves loose s (s.takeRawCount sl n).1 := by
  unfold State.takeRawCount
  split
  · exact .calibrate s sl n
  · refine (Evolves.unreferenced s sl).trans (.drive _ sl _ ⟨rfl, rfl, ?_, ?_, id, fun h => .inl h⟩)
    · simp [Drive.hasRange, State.setReferenced_drive]
    · simp [Drive.hasRange]

theorem State.runEnded_evolves (s : State) (sl : Slot) (e : RunEnd) : Evolves loose s (s.runEnded sl e).1 := by
  unfold State.runEnded
  simp only
  split
  · split
    · split <;> exact .refl s
    · split
      · exact State.startMove_evolves _ _ _ _
      · exact .refl s
    · exact State.takeRawCount_evolves _ _ _
    · exact .refl s
  · exact .refl s

theorem State.sceneGates_evolves (s : State) (id : Nat) : Evolves loose s (s.sceneGates id).1 := by
  unfold State.sceneGates; split <;> exact .refl s

theorem State.refuseSlot_evolves (s : State) (sl : Slot) (o : JobOutcome) : Evolves loose s (s.refuseSlot sl o).1 := .queued s sl _

theorem State.loadSlot_evolves (s : State) (sl : Slot) (id : Nat) : Evolves loose s (s.loadSlot sl id).1 := by
  unfold State.loadSlot
  split
  · exact .refl s
  · split
    · exact State.refuseSlot_evolves s sl _
    · split
      · exact State.refuseSlot_evolves s sl _
      · exact .refl s

theorem State.jogRequest_evolves (s : State) (sl : Slot) (dir : Dir) : Evolves loose s (s.jogRequest sl dir).1 := by
  unfold State.jogRequest
  split
  · exact .refl s
  · split
    · exact .refl s
    · exact .moves s _ rfl (.inl le_rfl)

theorem State.endAll_evolves (s : State) (o : JobOutcome) : Evolves loose s (s.endAll o).1 := .moves s _ rfl (.inl le_rfl)

theorem State.endWhere_evolves (s : State) (o : JobOutcome) (f : Slot → Kind → Bool) (g : Slot → Kind → QueuedOrigin → Bool) :
    Evolves loose s (s.endWhere o f g).1 := .moves s _ rfl (.inl le_rfl)

theorem State.supersede_evolves (s : State) : Evolves loose s s.supersede.1 := by
  unfold State.supersede
  split
  · exact .refl s
  · simp only
    split
    · refine Evolves.trans ?_ (State.sendResult_evolves _ _)
      exact .moves s _ rfl (.inl le_rfl)
    · exact .moves s _ rfl (.inl le_rfl)

theorem State.takeScene_evolves (s : State) (id n : Nat) : Evolves loose s (s.takeScene id n).1 :=
  (State.supersede_evolves s).trans (.scene _ _ _)

theorem State.takeLearn_evolves (s : State) (sl : Slot) : Evolves loose s (s.takeLearn sl).1 := by
  unfold State.takeLearn
  split
  · exact State.sendResult_evolves _ _
  · exact (State.supersede_evolves s).trans (.scene _ _ _)

end Sys2Proof.Machine
end

