-- ==== Sys2Proof/Laws/PeerHandlers.lean ====
section
/-! SUPPORT. The peer monitor's answers are made of the updates of `Evolves`; with them every answer to a report, and every step
carried to its end (`handle_evolves`, `settle_evolves`). -/

namespace Sys2Proof.Machine

variable {loose : Prop}

/-- The reconciliation counter of a view written. -/
theorem State.reconcileCount_evolves (s : State) (p n : Nat) :
    Evolves loose s (s.updView p (fun w => { w with reconcile := n })) :=
  Evolves.note s p _ (fun _ => ⟨rfl, rfl, rfl, rfl, rfl, rfl, rfl⟩)

theorem State.loseView_evolves (s : State) (p : Nat) (h : loose) : Evolves loose s (s.loseView p).1 := by
  unfold State.loseView
  split
  · exact .refl s
  · split
    · exact .refl s
    · exact .refl s
    · exact .refl s
    · exact .refl s
    all_goals exact (State.reconcileCount_evolves s p 0).trans (State.viewTo_evolves _ _ _ (.inl h))

theorem State.serveStake_evolves (s : State) (p : Nat) : Evolves loose s (s.serveStake p).1 := by
  unfold State.serveStake
  split
  · exact .refl s
  · split
    · split
      · simp only
        split
        · exact State.serveDueStake_evolves s p
        · exact .refl s
      · exact .clearedStake s p
    · exact .refl s

theorem State.peerTests_evolves (s : State) (r : Role) (h : loose) : Evolves loose s (s.peerTests r).1 := by
  unfold State.peerTests
  split
  · split
    · exact .missesMe s r _ h
    · exact .refl s
  · exact .refl s

theorem State.conflictTest_evolves (s : State) (p : Nat) (h : loose) : Evolves loose s (s.conflictTest p).1 := by
  unfold State.conflictTest
  split
  · exact .refl s
  · split
    all_goals first
      | (split
         · exact State.enterConflict_evolves _ _ h
         · exact .refl s)
      | exact .refl s

theorem State.reconcile_evolves (s : State) (v : View) (held : Bool) (h : loose) : Evolves loose s (s.reconcile v held).1 := by
  have ha : ∀ (from_ : EntryStatus) (e : Effect), Evolves loose s e.1 →
      Evolves loose s (e.andThen (fun t =>
        if (t.job v.slot).active = true ∧ (t.job v.slot).entryOf v.pair = some from_ then
          (t.setJob v.slot ((t.job v.slot).mark v.pair (fun _ => .needed)), [.decide v.slot v.pair])
        else (t, []))).1 := by
    intro from_ e he
    refine Evolves.andThen he ?_
    split
    · exact .job _ _ _
    · exact .refl _
  unfold State.reconcile
  simp only
  split
  · exact State.viewTo_evolves _ _ _ (.inl h)
  · exact State.viewTo_evolves _ _ _ (.inl h)
  · split
    · split
      · exact State.enterConflict_evolves _ _ h
      · exact .refl s
    · split
      · exact ha _ _ (State.viewTo_evolves _ _ _ (.inl h))
      · exact State.viewTo_evolves _ _ _ (.inl h)
  · split
    · split
      · exact State.enterConflict_evolves _ _ h
      · exact .refl s
    · split
      · exact ha _ _ (State.viewTo_evolves _ _ _ (.inl h))
      · exact State.viewTo_evolves _ _ _ (.inl h)
  · exact State.viewTo_evolves _ _ _ (.inl h)
  · exact ha _ _ (State.viewTo_evolves _ _ _ (.inl h))
  · exact .refl s

theorem State.compare_evolves (s : State) (p : Nat) (h : loose) : Evolves loose s (s.compare p).1 := by
  unfold State.compare
  split
  · exact .refl s
  · simp only
    repeat' split
    all_goals first
      | exact .refl s
      | exact (State.reconcileCount_evolves s p 0).trans (State.reconcile_evolves _ _ _ h)
      | exact State.reconcileCount_evolves s p _

theorem State.pairTests_evolves (s : State) (p : Nat) (h : loose) : Evolves loose s (s.pairTests p).1 :=
  Evolves.andThen (e := (s.retest p).andThen (fun t => t.conflictTest p))
    (Evolves.andThen (State.retest_evolves s p h) (State.conflictTest_evolves _ p h)) (State.compare_evolves _ p h)

theorem State.syncExit_evolves (s : State) (h : loose) : Evolves loose s s.syncExit.1 := by
  unfold State.syncExit
  split
  · exact (Evolves.running s h).trans (overAll_evolves (fun t p => State.derive_evolves t p h) _ _)
  · exact .refl s

/-! ### Every report -/

/-- A report that changes no peer pair's view but for claims decided and withdrawn, no peer record and no station state. -/
def Report.isLocal : Report → Bool
  | .retest _ | .peerLost _ | .peerReturned _ | .peerTests _ | .clearForced _ | .pairTests _ | .syncExit => false
  | _ => true

/-- Every answer to a report is made of the updates of `Evolves`, strict ones where the report is local. -/
theorem handle_evolves (r : Report) (s : State) (h : loose ∨ r.isLocal = true) : Evolves loose s (handle r s).1 := by
  have hl : r.isLocal = false → loose := fun hr => by simpa [hr] using h
  cases r with
  | envelope sl => exact State.handEnvelope_evolves s sl
  | release p => exact State.release_evolves s p
  | evalYield p => exact State.evalYield_evolves s p
  | serve p => exact State.serve_evolves s p
  | serveStake p =>
    unfold handle
    simp only
    split
    · exact .refl s
    · exact State.serveStake_evolves s p
  | retest p => exact State.retest_evolves s p (hl rfl)
  | arbitrate p => exact State.arbitrate_evolves s p
  | decide sl p => exact State.decideEntry_evolves s sl p
  | withdraw sl p st v0 => exact State.withdrawClaim_evolves s sl p st v0
  | failEntry sl p f => exact State.failEntry_evolves s sl p f
  | handRun sl => exact State.handRun_evolves s sl
  | learnCheck sl => exact State.learnCheck_evolves s sl
  | aduControl sl => exact State.aduControl_evolves s sl
  | beginWaiting sl => exact State.beginWaiting_evolves s sl
  | driveEntered => exact State.takeSample_evolves s _
  | supplyCritical => exact State.endAll_evolves s _
  | endRequest sl o => exact State.endRequest_evolves s sl o
  | endRequests sls o => exact State.endRequests_evolves s sls o
  | runEnded sl e => exact State.runEnded_evolves s sl e
  | finishJob sl o => exact State.finishJob_evolves s sl o
  | replaceJob sl q o => exact .queued s sl _
  | startQueued sl => exact State.startQueued_evolves s sl
  | sceneOutcome sl m o => exact State.enterOutcome_evolves s sl m o
  | sceneGates id => exact State.sceneGates_evolves s id
  | loadSlot sl id => exact State.loadSlot_evolves s sl id
  | startYield p sl => exact State.startYield_evolves s p sl
  | jogRequest sl dir => exact State.jogRequest_evolves s sl dir
  | peerLost r => exact overAll_evolves (fun t p => State.loseView_evolves t p (hl rfl)) _ s
  | peerReturned r => exact overAll_evolves (fun t p => State.derive_evolves t p (hl rfl)) _ s
  | peerTests r => exact State.peerTests_evolves s r (hl rfl)
  | clearForced r => exact .unforced s r (hl rfl)
  | pairTests p => exact State.pairTests_evolves s p (hl rfl)
  | unheardEntered => exact .refl s
  | unheardCleared => exact overAll_evolves State.serveStake_evolves _ s
  | syncExit => exact State.syncExit_evolves s (hl rfl)

end Sys2Proof.Machine
end

