-- ==== Sys2Proof/Laws/Local.lean ====
section
/-! SUPPORT. A local report is answered by local reports alone, so that a step that begins with local reports stays within the
strict updates of `Evolves`. -/

namespace Sys2Proof.Machine

/-- Every report of a list is local. -/
def AllLocal (rs : List Report) : Prop := ∀ x ∈ rs, x.isLocal = true

@[simp] theorem AllLocal.nil : AllLocal [] := by simp [AllLocal]
@[simp] theorem AllLocal.cons (r : Report) (rs : List Report) : AllLocal (r :: rs) ↔ r.isLocal = true ∧ AllLocal rs := by
  simp [AllLocal]
@[simp] theorem AllLocal.append (a b : List Report) : AllLocal (a ++ b) ↔ AllLocal a ∧ AllLocal b := by
  simp only [AllLocal, List.mem_append]
  exact ⟨fun h => ⟨fun x hx => h x (.inl hx), fun x hx => h x (.inr hx)⟩, fun h x hx => hx.elim (h.1 x) (h.2 x)⟩
theorem AllLocal.map {α : Type} (l : List α) (f : α → Report) (h : ∀ x, (f x).isLocal = true) : AllLocal (l.map f) := by
  intro y hy
  obtain ⟨x, _, rfl⟩ := List.mem_map.mp hy
  exact h x
theorem AllLocal.filterMap {α : Type} (l : List α) (f : α → Option Report) (h : ∀ x y, f x = some y → y.isLocal = true) :
    AllLocal (l.filterMap f) := by
  intro y hy
  obtain ⟨x, _, hx⟩ := List.mem_filterMap.mp hy
  exact h x y hx

theorem AllLocal.andThen {e : Effect} {f : State → Effect} (h : AllLocal e.2) (hf : AllLocal (f e.1).2) :
    AllLocal (e.andThen f).2 := by simp [Effect.andThen, h, hf]

theorem State.viewTo_local (s : State) (p : Nat) (st : ViewState) : AllLocal (s.viewTo p st).2 := by
  unfold State.viewTo
  split
  · simp
  · split
    · simp
    · simp only [AllLocal.append]
      exact ⟨AllLocal.map _ _ fun _ => rfl, AllLocal.map _ _ fun _ => rfl⟩

theorem State.withdrawals_local (s : State) (sl : Slot) (es : List Entry) : AllLocal (s.withdrawals sl es) := by
  refine AllLocal.filterMap _ _ fun e y h => ?_
  obtain ⟨v, _, rfl⟩ := Option.map_eq_some_iff.mp h
  rfl

theorem State.release_local (s : State) (p : Nat) : AllLocal (s.release p).2 := by
  unfold State.release
  simp only
  repeat' split
  all_goals first
    | exact State.viewTo_local _ _ _
    | exact AllLocal.andThen (State.viewTo_local _ _ _) (by simp [Report.isLocal])
    | simp

theorem State.evalYield_local (s : State) (p : Nat) : AllLocal (s.evalYield p).2 := by
  unfold State.evalYield State.decline
  simp only
  repeat' split
  all_goals simp [Report.isLocal]

theorem State.serve_local (s : State) (p : Nat) : AllLocal (s.serve p).2 := by
  unfold State.serve
  repeat' split
  all_goals simp [Report.isLocal]

theorem Effect.thenServe_local {e : Effect} (h : AllLocal e.2) (p : Nat) : AllLocal (e.thenServe p).2 :=
  (AllLocal.append _ _).mpr ⟨h, by simp [Report.isLocal]⟩

theorem State.arbitrateAxis_local (s : State) (p : Nat) (x : SelfAxis) : AllLocal (s.arbitrateAxis p x).2 := by
  unfold State.arbitrateAxis State.waitSelf State.grantSelf
  simp only
  repeat' split
  all_goals first
    | exact State.viewTo_local _ _ _
    | simp [Report.isLocal]

theorem State.arbitrate_local (s : State) (p : Nat) : AllLocal (s.arbitrate p).2 := by
  unfold State.arbitrate
  repeat' split
  all_goals first
    | exact AllLocal.andThen (State.arbitrateAxis_local _ _ _) (State.arbitrateAxis_local _ _ _)
    | simp

theorem State.decideEntry_local (s : State) (sl : Slot) (p : Nat) : AllLocal (s.decideEntry sl p).2 := by
  unfold State.decideEntry State.claimInConflict State.claimOpen
  simp only
  repeat' split
  all_goals first
    | exact State.viewTo_local _ _ _
    | simp [Report.isLocal]

theorem State.loseFlight_local (s : State) (p : Nat) : AllLocal (s.loseFlight p).2 := by
  unfold State.loseFlight
  refine Effect.thenServe_local ?_ p
  split
  · split
    · exact State.viewTo_local _ _ _
    · simp
  · simp

theorem State.withdrawClaim_local (s : State) (sl : Slot) (p : Nat) (st : EntryStatus) (v0 : ViewState) :
    AllLocal (s.withdrawClaim sl p st v0).2 := by
  unfold State.withdrawClaim State.withdrawFlight
  simp only
  repeat' split
  all_goals first
    | exact State.viewTo_local _ _ _
    | exact State.loseFlight_local _ _
    | simp

theorem State.failEntry_local (s : State) (sl : Slot) (p : Nat) (f : Failure) : AllLocal (s.failEntry sl p f).2 := by
  unfold State.failEntry
  simp only
  repeat' split
  all_goals first
    | exact State.withdrawals_local _ _ _
    | simp [Report.isLocal]

theorem State.tryDriving_local (s : State) (sl : Slot) (r : Run) : AllLocal (s.tryDriving sl r).2 := by
  unfold State.tryDriving State.endRun State.enterDriving
  simp only
  repeat' split
  all_goals simp [Report.isLocal]

theorem State.testRun_local (s : State) (sl : Slot) (r : Run) : AllLocal (s.testRun sl r).2 := by
  unfold State.testRun State.endRun
  repeat' split
  all_goals first
    | exact State.tryDriving_local _ _ _
    | simp [Report.isLocal]

theorem State.beginRun_local (s : State) (sl : Slot) (r : Run) : AllLocal (s.beginRun sl r).2 := by
  unfold State.beginRun State.endRun
  split
  · simp [Report.isLocal]
  · exact State.testRun_local _ _ _

theorem State.takeBraking_local (s : State) (sl : Slot) (r : Run) : AllLocal (s.takeBraking sl r).2 := by
  unfold State.takeBraking State.dropWaiting State.joinBraking
  refine AllLocal.andThen ?_ ?_
  · split <;> simp [Report.isLocal]
  · generalize (if (s.drive sl).waitingRun.isSome then _ else _ : Effect).1 = t
    repeat' split
    all_goals first
      | exact State.tryDriving_local _ _ _
      | simp

theorem State.takeRun_local (s : State) (sl : Slot) (r : Run) : AllLocal (s.takeRun sl r).2 := by
  unfold State.takeRun
  simp only
  repeat' split
  all_goals first
    | exact State.beginRun_local _ _ _
    | exact State.takeBraking_local _ _ _
    | simp [Report.isLocal]

theorem State.beginWaiting_local (s : State) (sl : Slot) : AllLocal (s.beginWaiting sl).2 := by
  unfold State.beginWaiting
  split
  · simp
  · exact State.beginRun_local _ _ _

theorem State.onEnvelope_local (s : State) (sl : Slot) : AllLocal (s.onEnvelope sl).2 := by
  unfold State.onEnvelope
  simp only
  repeat' split
  all_goals first
    | exact State.testRun_local _ _ _
    | simp

theorem State.aduControl_local (s : State) (sl : Slot) : AllLocal (s.aduControl sl).2 := by
  unfold State.aduControl
  simp only
  repeat' split
  all_goals first
    | exact State.testRun_local _ _ _
    | exact State.takeRun_local _ _ _
    | simp

theorem State.takeSample_local (s : State) (n : Nat) : AllLocal (s.takeSample n).2 := by
  unfold State.takeSample
  simp only
  split <;> simp [Report.isLocal]

theorem State.endRequest_local (s : State) (sl : Slot) (o : JobOutcome) : AllLocal (s.endRequest sl o).2 := by
  unfold State.endRequest
  simp only
  repeat' split
  all_goals simp [Report.isLocal]

theorem overAll_local {α : Type} {f : State → α → Effect} (hf : ∀ s x, AllLocal (f s x).2) (xs : List α) (s : State) :
    AllLocal (overAll f xs s).2 := by
  induction xs generalizing s with
  | nil => simp [overAll]
  | cons x xs ih => exact AllLocal.andThen (hf s x) (ih _)

theorem State.endRequests_local (s : State) (sls : List Slot) (o : JobOutcome) : AllLocal (s.endRequests sls o).2 :=
  overAll_local (fun t sl => State.endRequest_local t sl o) sls s

theorem State.finishJob_local (s : State) (sl : Slot) (o : JobOutcome) : AllLocal (s.finishJob sl o).2 := by
  unfold State.finishJob
  simp only
  split
  · simp only [AllLocal.append, AllLocal.cons, AllLocal.nil, and_true]
    exact ⟨⟨⟨State.withdrawals_local _ _ _, AllLocal.map _ _ fun _ => rfl⟩, AllLocal.map _ _ fun _ => rfl⟩, rfl, rfl⟩
  · simp

theorem State.startMove_local (s : State) (sl : Slot) (j : Job) (t : Int) : AllLocal (s.startMove sl j t).2 := by
  unfold State.startMove
  simp only [AllLocal.append, AllLocal.cons, AllLocal.nil, and_true]
  exact ⟨AllLocal.map _ _ fun _ => rfl, rfl⟩

theorem State.startBlind_local (s : State) (sl : Slot) (j : Job) (dir : Dir) : AllLocal (s.startBlind sl j dir).2 := by
  simp [State.startBlind, Report.isLocal]

theorem State.startReference_local (s : State) (sl : Slot) (j : Job) (t : Int) : AllLocal (s.startReference sl j t).2 := by
  simp [State.startReference, Report.isLocal]

theorem State.startScene_local (s : State) (sl : Slot) (id p : Nat) (t : Int) (reference : Bool) :
    AllLocal (s.startScene sl id p t reference).2 := by
  unfold State.startScene
  simp only
  repeat' split
  all_goals first
    | exact State.startMove_local _ _ _ _
    | exact State.startReference_local _ _ _ _
    | simp [Report.isLocal]

theorem State.startJog_local (s : State) (sl : Slot) (dir : Dir) : AllLocal (s.startJog sl dir).2 := by
  unfold State.startJog
  simp only
  repeat' split
  all_goals first
    | exact State.startMove_local _ _ _ _
    | exact State.startBlind_local _ _ _ _
    | simp

theorem State.startLearn_local (s : State) (sl : Slot) : AllLocal (s.startLearn sl).2 := by
  unfold State.startLearn
  simp only [AllLocal.append, AllLocal.cons, AllLocal.nil, and_true]
  exact ⟨AllLocal.map _ _ fun _ => rfl, rfl⟩

theorem State.startYield_local (s : State) (p : Nat) (sl : Slot) : AllLocal (s.startYield p sl).2 := by
  unfold State.startYield
  repeat' split
  all_goals first
    | exact State.startMove_local _ _ _ _
    | simp [Report.isLocal]

theorem State.startQueued_local (s : State) (sl : Slot) : AllLocal (s.startQueued sl).2 := by
  unfold State.startQueued
  simp only
  repeat' split
  all_goals first
    | exact State.startScene_local _ _ _ _ _ _
    | exact State.startJog_local _ _ _
    | exact State.startLearn_local _ _
    | exact (AllLocal.append _ _).mpr ⟨by simp [Report.isLocal], AllLocal.map _ _ fun _ => rfl⟩
    | simp

theorem State.takeRawCount_local (s : State) (sl : Slot) (n : Nat) : AllLocal (s.takeRawCount sl n).2 := by
  unfold State.takeRawCount
  split <;> simp [Report.isLocal]

theorem State.runEnded_local (s : State) (sl : Slot) (e : RunEnd) : AllLocal (s.runEnded sl e).2 := by
  unfold State.runEnded
  simp only
  repeat' split
  all_goals first
    | exact State.startMove_local _ _ _ _
    | exact State.takeRawCount_local _ _ _
    | simp [Report.isLocal]

theorem State.enterOutcome_local (s : State) (sl : Slot) (m : Member) (o : JobOutcome) : AllLocal (s.enterOutcome sl m o).2 := by
  unfold State.enterOutcome
  simp only
  repeat' split
  all_goals simp

theorem State.replaceJob_local (s : State) (sl : Slot) (q : QueuedOrigin) (o : JobOutcome) :
    AllLocal (s.replaceJob sl q o).2 := by
  unfold State.replaceJob
  simp only [AllLocal.append, AllLocal.cons, AllLocal.nil, and_true]
  refine ⟨?_, rfl, rfl⟩
  split <;> simp [Report.isLocal]

theorem State.sceneGates_local (s : State) (id : Nat) : AllLocal (s.sceneGates id).2 := by
  unfold State.sceneGates
  split
  · exact AllLocal.map _ _ fun _ => rfl
  · exact AllLocal.map _ _ fun _ => rfl

theorem State.loadSlot_local (s : State) (sl : Slot) (id : Nat) : AllLocal (s.loadSlot sl id).2 := by
  unfold State.loadSlot State.refuseSlot
  repeat' split
  all_goals simp [Report.isLocal]

theorem State.jogRequest_local (s : State) (sl : Slot) (dir : Dir) : AllLocal (s.jogRequest sl dir).2 := by
  unfold State.jogRequest
  simp only
  repeat' split
  all_goals first
    | simp [Report.isLocal]

theorem State.endAll_local (s : State) (o : JobOutcome) : AllLocal (s.endAll o).2 := by simp [State.endAll, Report.isLocal]

theorem State.endWhere_local (s : State) (o : JobOutcome) (f : Slot → Kind → Bool) (g : Slot → Kind → QueuedOrigin → Bool) :
    AllLocal (s.endWhere o f g).2 := by simp [State.endWhere, Report.isLocal]

theorem AllLocal.flatMap {α : Type} (l : List α) (f : α → List Report) (h : ∀ x, AllLocal (f x)) : AllLocal (l.flatMap f) := by
  intro y hy
  obtain ⟨x, _, hx⟩ := List.mem_flatMap.mp hy
  exact h x y hx

theorem claimFails_local (v : View) (f : Failure) (st : EntryStatus) : AllLocal (claimFails v f st) := by
  simp [claimFails, Report.isLocal]

theorem State.unheardEntered_local (s : State) : AllLocal s.unheardEntered.2 := by
  refine AllLocal.flatMap _ _ fun v => ?_
  split
  · simp
  · exact AllLocal.flatMap _ _ fun st => claimFails_local _ _ _

theorem State.serveStake_local (s : State) (p : Nat) : AllLocal (s.serveStake p).2 := by
  unfold State.serveStake
  repeat' split
  all_goals simp

/-- A local report is answered by local reports alone. -/
theorem handle_local (r : Report) (s : State) (h : r.isLocal = true) : AllLocal (handle r s).2 := by
  cases r with
  | envelope sl => exact State.onEnvelope_local _ sl
  | release p => exact State.release_local s p
  | evalYield p => exact State.evalYield_local s p
  | serve p => exact State.serve_local s p
  | serveStake p =>
    unfold handle
    simp only
    split
    · exact AllLocal.nil
    · exact State.serveStake_local s p
  | arbitrate p => exact State.arbitrate_local s p
  | decide sl p => exact State.decideEntry_local s sl p
  | withdraw sl p st v0 => exact State.withdrawClaim_local s sl p st v0
  | failEntry sl p f => exact State.failEntry_local s sl p f
  | handRun sl => unfold handle State.handRun; simp only; split <;> simp
  | learnCheck sl => unfold handle State.learnCheck; simp only; split <;> simp
  | aduControl sl => exact State.aduControl_local s sl
  | beginWaiting sl => exact State.beginWaiting_local s sl
  | driveEntered => exact State.takeSample_local s _
  | supplyCritical => exact State.endAll_local s _
  | endRequest sl o => exact State.endRequest_local s sl o
  | endRequests sls o => exact State.endRequests_local s sls o
  | runEnded sl e => exact State.runEnded_local s sl e
  | finishJob sl o => exact State.finishJob_local s sl o
  | replaceJob sl q o => exact State.replaceJob_local s sl q o
  | startQueued sl => exact State.startQueued_local s sl
  | sceneOutcome sl m o => exact State.enterOutcome_local s sl m o
  | sceneGates id => exact State.sceneGates_local s id
  | loadSlot sl id => exact State.loadSlot_local s sl id
  | startYield p sl => exact State.startYield_local s p sl
  | jogRequest sl dir => exact State.jogRequest_local s sl dir
  | unheardEntered => exact State.unheardEntered_local s
  | unheardCleared => exact overAll_local State.serveStake_local _ s
  | retest p => cases h
  | peerLost r => cases h
  | peerReturned r => cases h
  | peerTests r => cases h
  | clearForced r => cases h
  | pairTests p => cases h
  | syncExit => cases h

/-! ### A step carried to its end -/

variable {loose : Prop}

theorem cascade_evolves (n : Nat) (rs ls : List Report) (s : State) (h : loose ∨ (AllLocal rs ∧ AllLocal ls)) :
    Evolves loose s (cascade n rs ls s) := by
  induction n generalizing rs ls s with
  | zero => exact .refl s
  | succ n ih =>
    cases rs with
    | nil =>
      cases ls with
      | nil => exact .refl s
      | cons l ls =>
        simp only [AllLocal.nil, AllLocal.cons, true_and] at h
        exact (handle_evolves l s (h.imp_right And.left)).trans
          (ih _ _ _ (h.imp_right fun h => ⟨handle_local l s h.1, h.2⟩))
    | cons r rs =>
      simp only [AllLocal.cons] at h
      unfold cascade
      split
      · exact ih _ _ _ (h.imp_right fun h => by simp [h.1.1, h.1.2, h.2])
      · exact (handle_evolves r s (h.imp_right fun h => h.1.1)).trans
          (ih _ _ _ (h.imp_right fun h => ⟨by simp [handle_local r s h.1.1, h.1.2], h.2⟩))

/-- A step carried to its end is made of the updates of `Evolves`, strict ones where its reports are local. -/
theorem settle_evolves (e : Effect) (h : loose ∨ AllLocal e.2) : Evolves loose e.1 (settle e) :=
  (cascade_evolves _ _ _ _ (h.imp_right fun h => ⟨h, AllLocal.nil⟩)).trans (.wake _)

end Sys2Proof.Machine
end

