-- ==== Sys2Proof/Laws/Kept.lean ====
section
/-! SUPPORT. What every update of `Evolves` keeps, and so what the reports of every step keep. -/

namespace Sys2Proof.Machine

variable {loose : Prop} {s t u : State}

/-! ### What no report changes -/

theorem SameAround.refl (s : State) : SameAround s s :=
  ⟨rfl, rfl, rfl, rfl, rfl, rfl, rfl, rfl, rfl, rfl, rfl, rfl, rfl, rfl, rfl, rfl, fun _ => rfl⟩

theorem SameAround.trans (a : SameAround s t) (b : SameAround t u) : SameAround s u where
  role := b.role.trans a.role
  pending := b.pending.trans a.pending
  gateway := b.gateway.trans a.gateway
  clashWindow := b.clashWindow.trans a.clashWindow
  clashFlag := b.clashFlag.trans a.clashFlag
  rx := b.rx.trans a.rx
  attempt := b.attempt.trans a.attempt
  errors := b.errors.trans a.errors
  busOff := b.busOff.trans a.busOff
  marker := b.marker.trans a.marker
  recorded := b.recorded.trans a.recorded
  up := b.up.trans a.up
  down := b.down.trans a.down
  one := b.one.trans a.one
  occupancy := b.occupancy.trans a.occupancy
  jogs := b.jogs.trans a.jogs
  counts := fun sl => (b.counts sl).trans (a.counts sl)

theorem Bif.placeStatus_rest (b : Bif) (f : Frame) :
    (b.placeStatus f).rx = b.rx ∧ (b.placeStatus f).attempt = b.attempt ∧ (b.placeStatus f).errors = b.errors
      ∧ (b.placeStatus f).busOff = b.busOff ∧ (b.placeStatus f).general = b.general := by
  unfold Bif.placeStatus
  repeat' split
  all_goals simp

/-- A STATUS sent changes the STATUS slot, the sequence and the status timer. -/
theorem State.sendStatus_around (s : State) : SameAround s s.sendStatus where
  role := rfl
  pending := rfl
  gateway := rfl
  clashWindow := rfl
  clashFlag := rfl
  rx := (Bif.placeStatus_rest _ _).1
  attempt := (Bif.placeStatus_rest _ _).2.1
  errors := (Bif.placeStatus_rest _ _).2.2.1
  busOff := (Bif.placeStatus_rest _ _).2.2.2.1
  marker := rfl
  recorded := rfl
  up := rfl
  down := rfl
  one := rfl
  occupancy := rfl
  jogs := rfl
  counts := fun _ => rfl

theorem State.takeActivity_around (s : State) : SameAround s s.takeActivity := by
  unfold State.takeActivity
  split
  · simp only
    split
    · exact ⟨rfl, rfl, rfl, rfl, rfl, rfl, rfl, rfl, rfl, rfl, rfl, rfl, rfl, rfl, rfl, rfl, fun _ => rfl⟩
    · split
      · refine SameAround.trans ?_ (State.sendStatus_around _)
        exact ⟨rfl, rfl, rfl, rfl, rfl, rfl, rfl, rfl, rfl, rfl, rfl, rfl, rfl, rfl, rfl, rfl, fun _ => rfl⟩
      · exact ⟨rfl, rfl, rfl, rfl, rfl, rfl, rfl, rfl, rfl, rfl, rfl, rfl, rfl, rfl, rfl, rfl, fun _ => rfl⟩
  · exact .refl s

theorem State.takeActivity_keeps (s : State) :
    s.takeActivity.adu = s.adu ∧ s.takeActivity.smon.level = s.smon.level ∧ s.takeActivity.smon.recovery = s.smon.recovery
      ∧ s.takeActivity.clu = s.clu ∧ s.takeActivity.bus.general = s.bus.general ∧ s.takeActivity.mvc = s.mvc
      ∧ s.takeActivity.pmon.peers = s.pmon.peers ∧ s.takeActivity.rcs = s.rcs ∧ s.takeActivity.station = s.station
      ∧ s.takeActivity.syncTimer = s.syncTimer := by
  unfold State.takeActivity
  split
  · simp only
    split
    · simp
    · refine ⟨?_, ?_, ?_, ?_, ?_, ?_, ?_, ?_, ?_, ?_⟩
      all_goals (repeat' split)
      all_goals first
        | rfl
        | exact (Bif.placeStatus_rest _ _).2.2.2.2
  · simp

/-- No update of a step changes what `SameAround` lists. -/
theorem Evolves.around (h : Evolves loose s t) : SameAround s t := by
  induction h with
  | refl s => exact .refl s
  | trans _ _ a b => exact a.trans b
  | activity s =>
    unfold State.noteActivity
    split
    · exact ⟨rfl, rfl, rfl, rfl, rfl, rfl, rfl, rfl, rfl, rfl, rfl, rfl, rfl, rfl, rfl, rfl, fun _ => rfl⟩
    · exact .refl s
  | moves s m hj ho => exact ⟨rfl, rfl, rfl, rfl, rfl, rfl, rfl, rfl, rfl, rfl, rfl, rfl, rfl, rfl, rfl, hj, fun _ => rfl⟩
  | drive s sl d h =>
    refine ⟨rfl, rfl, rfl, rfl, rfl, rfl, rfl, rfl, rfl, rfl, rfl, rfl, rfl, rfl, rfl, rfl, fun x => ?_⟩
    by_cases hx : sl = x
    · subst hx; simpa [State.drive, State.setDrive] using h.count
    · simp [State.drive, State.setDrive, hx]
  | moved s v st hv hs =>
    obtain ⟨es, h⟩ := State.moveView_eq s v st
    rw [h]
    exact ⟨rfl, rfl, rfl, rfl, rfl, rfl, rfl, rfl, rfl, rfl, rfl, rfl, rfl, rfl, rfl, rfl, fun _ => rfl⟩
  | unreferenced s sl =>
    refine ⟨rfl, rfl, rfl, rfl, rfl, rfl, rfl, rfl, rfl, rfl, rfl, rfl, rfl, rfl, rfl, rfl, fun x => ?_⟩
    cases sl <;> cases x <;> rfl
  | wake s => exact State.takeActivity_around s
  | _ => exact ⟨rfl, rfl, rfl, rfl, rfl, rfl, rfl, rfl, rfl, rfl, rfl, rfl, rfl, rfl, rfl, rfl, fun _ => rfl⟩

/-! ### What a step without a passage event leaves alone -/

theorem ViewState.settlesAs.trans {x y z : ViewState} (h : x.settlesAs y) (k : y.settlesAs z) : x.settlesAs z := by
  cases x <;> simp_all [ViewState.settlesAs]
  rcases h with rfl | rfl <;> exact k
  rcases h with rfl | rfl <;> exact k

theorem ViewState.settlesAs.refl (x : ViewState) : x.settlesAs x := by cases x <;> simp [ViewState.settlesAs]

theorem View.settlesAs.refl (v : View) : v.settlesAs v := ⟨.refl _, fun _ => rfl, .inl rfl, .inl rfl⟩

theorem View.settlesAs.trans {u v w : View} (h : u.settlesAs v) (k : v.settlesAs w) : u.settlesAs w := by
  obtain ⟨h1, h0, h2, h3⟩ := h
  obtain ⟨k1, k0, k2, k3⟩ := k
  refine ⟨h1.trans k1, fun hu => ?_, ?_, ?_⟩
  · rw [hu] at h1
    rw [k0 h1, h0 hu]
  · rcases k2 with k | k
    · rw [k]; exact h2
    · exact .inr k
  · rcases k3 with k | k
    · rw [k]; exact h3
    · exact .inr k

theorem SamePassages.refl (s : State) : SamePassages s s where
  toSameAround := .refl s
  station := rfl
  syncTimer := rfl
  peers := rfl
  views := fun _ v hv _ => ⟨v, hv, rfl, rfl, rfl, .refl v⟩

theorem SamePassages.trans (a : SamePassages s t) (b : SamePassages t u) : SamePassages s u where
  toSameAround := a.toSameAround.trans b.toSameAround
  station := b.station.trans a.station
  syncTimer := b.syncTimer.trans a.syncTimer
  peers := b.peers.trans a.peers
  views := fun p v hv hp => by
    obtain ⟨w, hw, h1, h2, h3, h4⟩ := a.views p v hv hp
    obtain ⟨x, hx, k1, k2, k3, k4⟩ := b.views p w hw (by simpa [View.peerRole, h3] using hp)
    exact ⟨x, hx, k1.trans h1, k2.trans h2, k3.trans h3, h4.trans k4⟩

/-- A step whose updates keep the views keeps the passages. -/
theorem SamePassages.ofClu (h : SameAround s t) (hc : t.clu.views = s.clu.views) (hp : t.pmon.peers = s.pmon.peers)
    (hs : t.station = s.station) (hy : t.syncTimer = s.syncTimer) : SamePassages s t where
  toSameAround := h
  station := hs
  syncTimer := hy
  peers := hp
  views := fun p v hv _ => ⟨v, by simpa [State.view?, hc] using hv, rfl, rfl, rfl, .refl _⟩

/-- Strict updates keep the passages of the peer pairs. -/
theorem Evolves.passages (h : Evolves False s t) : SamePassages s t := by
  have ha := h.around
  induction h with
  | refl s => exact .ofClu ha rfl rfl rfl rfl
  | trans h k a b => exact (a h.around).trans (b k.around)
  | activity s => unfold State.noteActivity at *; split <;> simp_all <;> exact .ofClu (by assumption) rfl rfl rfl rfl
  | view s p f hid hg hs =>
    refine ⟨ha, rfl, rfl, rfl, fun q v hv hp => ?_⟩
    rw [State.view?_updView _ _ _ (fun v => (hid v).1), hv]
    refine ⟨_, rfl, ?_⟩
    simp only
    split
    · rename_i hq
      have hq' : q = p := (State.view?_some_pair hv).symm.trans hq
      subst hq'
      exact ⟨(hid v).2.1, (hid v).2.2.1, (hid v).2.2.2, (hs.resolve_left id) v hv hp⟩
    · exact ⟨rfl, rfl, rfl, .refl _⟩
  | moved s v st hv hs =>
    have hm := State.moveView_eq s v st
    refine ⟨ha, ?_, ?_, ?_, fun q w hw hp => ?_⟩
    · obtain ⟨es, h⟩ := hm; rw [h]; rfl
    · obtain ⟨es, h⟩ := hm; rw [h]; rfl
    · obtain ⟨es, h⟩ := hm; rw [h]; rfl
    · rw [State.view?_moveView, hw]
      refine ⟨_, rfl, ?_⟩
      simp only
      split
      · rename_i hq
        have hq' : q = v.pair := (State.view?_some_pair hw).symm.trans hq
        rw [hq', hv] at hw
        cases hw
        obtain ⟨_, h2, h3, h4, _⟩ := View.goTo_frame v st
        exact ⟨h2, h3, h4, hs.resolve_left id hp⟩
      · exact ⟨rfl, rfl, rfl, .refl _⟩
  | missesMe s r b h => exact h.elim
  | unforced s r h => exact h.elim
  | running s h => exact h.elim
  | wake s =>
    obtain ⟨_, _, _, h4, _, _, h7, _, h9, h10⟩ := State.takeActivity_keeps s
    exact .ofClu ha (by rw [h4]) h7 h9 h10
  | _ => exact .ofClu ha rfl rfl rfl rfl

/-! ### Soundness -/

theorem Evolves.drivesSound (h : Evolves loose s t) (hs : s.DrivesSound) : t.DrivesSound := by
  induction h with
  | trans _ _ a b => exact b (a hs)
  | moved s v st hv hm =>
    obtain ⟨es, h⟩ := State.moveView_eq s v st
    rw [h]
    exact hs
  | activity s => intro sl; simpa using hs sl
  | drive s sl d h =>
    intro x
    rw [State.drive_setDrive]
    split
    · exact h.sound (hs sl)
    · exact hs x
  | unreferenced s sl =>
    intro x
    rw [State.setReferenced_drive]
    split
    · exact hs sl
    · exact hs x
  | wake s => intro x; simpa [State.drive, (State.takeActivity_keeps s).1] using hs x
  | _ => exact hs

theorem Evolves.supplyHolds (h : Evolves loose s t) (hs : s.SupplyHolds) : t.SupplyHolds := by
  induction h with
  | trans _ _ a b => exact b (a hs)
  | moved s v st hv hm =>
    obtain ⟨es, h⟩ := State.moveView_eq s v st
    rw [h]
    exact hs
  | activity s => intro hb sl; simpa using hs (by simpa using hb) sl
  | drive s sl d h =>
    intro hb x
    have hb' : s.supplyBars = true := hb
    rw [State.drive_setDrive]
    split
    · intro hd
      rcases h.supply hd with h1 | h1
      · exact hs hb' sl h1
      · rw [hb'] at h1; cases h1
    · exact hs hb' x
  | unreferenced s sl =>
    intro hb x
    rw [State.setReferenced_drive]
    split
    · exact hs hb sl
    · exact hs hb x
  | sample s m hb hu hr =>
    intro hm sl
    simp only [State.supplyBars, Bool.or_eq_true, beq_iff_eq] at hm
    by_cases hc : s.smon.level = .critical
    · exact hs (by simp [State.supplyBars, hc]) sl
    · exact hb (hm.resolve_right hu) hc sl
  | wake s =>
    intro hb x
    have h := State.takeActivity_keeps s
    simp only [State.supplyBars, h.2.1] at hb
    simpa [State.drive, h.1] using hs hb x
  | _ => exact hs

theorem applySample_recovery (l : Level) (n v : Nat) (_ : n < 3) :
    ((applySample l n v).1 ≠ .critical → (applySample l n v).2 = 0) ∧ (applySample l n v).2 < 3 := by
  unfold applySample
  cases l
  · simp
  · simp
  · simp
  · simp only
    repeat' split
    all_goals simp_all

theorem Evolves.recoverySound (h : Evolves loose s t) (hs : s.RecoverySound) : t.RecoverySound := by
  induction h with
  | trans _ _ a b => exact b (a hs)
  | moved s v st hv hm =>
    obtain ⟨es, h⟩ := State.moveView_eq s v st
    rw [h]
    exact hs
  | activity s => simpa [State.RecoverySound] using hs
  | sample s m hb hu hr =>
    have h := applySample_recovery s.smon.level s.smon.recovery (supplySample s.vsense) hs.2
    rw [← hr] at h
    exact h
  | wake s =>
    have h := State.takeActivity_keeps s
    simpa [State.RecoverySound, h.2.1, h.2.2.1] using hs
  | _ => exact hs

theorem Evolves.busBounded (h : Evolves loose s t) (hs : s.BusBounded) : t.BusBounded := by
  induction h with
  | trans _ _ a b => exact b (a hs)
  | moved s v st hv hm =>
    obtain ⟨es, h⟩ := State.moveView_eq s v st
    rw [h]
    exact hs
  | activity s => unfold State.noteActivity; split <;> exact hs
  | moves s m hj ho => exact ⟨hs.1, ho.elim (fun h => h.trans hs.2) id⟩
  | general s fs h => exact ⟨⟨hs.1.1, h.elim (fun h => h.trans hs.1.2.1) id, hs.1.2.2⟩, hs.2⟩
  | wake s =>
    have h := State.takeActivity_keeps s
    have k := State.takeActivity_around s
    refine ⟨⟨?_, ?_, ?_⟩, ?_⟩
    · rw [k.rx]; exact hs.1.1
    · rw [h.2.2.2.2.1]; exact hs.1.2.1
    · rw [k.rx, k.attempt]; exact hs.1.2.2
    · rw [h.2.2.2.2.2.1]; exact hs.2
  | _ => exact hs

theorem PeerRec.countMissesMe_sound (p : PeerRec) (b : Bool) (h : p.sound) : (p.countMissesMe b).sound := by
  unfold PeerRec.countMissesMe
  obtain ⟨h1, h2, h3, h4⟩ := h
  split
  · exact ⟨h1, h2, by simp, h4⟩
  · split
    · exact ⟨h1, h2, by simp, h4⟩
    · exact ⟨h1, h2, by simp only; omega, h4⟩

theorem State.updPeer_sound (s : State) (r : Role) (f : PeerRec → PeerRec) (hf : ∀ p : PeerRec, p.sound → (f p).sound)
    (hs : s.PeersSound) : (s.updPeer r f).PeersSound := by
  intro p hp
  obtain ⟨q, hq, rfl⟩ := List.mem_map.mp hp
  split
  · exact hf q (hs q hq)
  · exact hs q hq

theorem Evolves.peersSound (h : Evolves loose s t) (hs : s.PeersSound) : t.PeersSound := by
  induction h with
  | trans _ _ a b => exact b (a hs)
  | moved s v st hv hm =>
    obtain ⟨es, h⟩ := State.moveView_eq s v st
    rw [h]
    exact hs
  | activity s => unfold State.noteActivity; split <;> exact hs
  | missesMe s r b h => exact State.updPeer_sound s r _ (fun p hp => p.countMissesMe_sound b hp) hs
  | unforced s r h => exact State.updPeer_sound s r _ (fun p hp => hp) hs
  | wake s => intro p hp; rw [(State.takeActivity_keeps s).2.2.2.2.2.2.1] at hp; exact hs p hp
  | _ => exact hs

theorem Evolves.storeSound (h : Evolves loose s t) (x : Slot) (hs : s.StoreSound x) : t.StoreSound x := by
  induction h with
  | trans _ _ a b => exact b (a hs)
  | activity s => unfold State.noteActivity; split <;> exact hs
  | drive s sl d h =>
    refine ⟨fun hk => ?_, hs.2⟩
    rw [State.drive_setDrive]
    have := hs.1 hk
    split
    · rename_i hx
      subst hx
      rw [h.count, h.referenced]
      exact this
    · exact this
  | moved s v st hv hm =>
    obtain ⟨es, h⟩ := State.moveView_eq s v st
    rw [h]
    exact hs
  | unreferenced s sl =>
    refine ⟨fun hk => ?_, hs.2⟩
    rw [State.setReferenced_drive]
    have := hs.1 hk
    by_cases hx : sl = x
    · subst hx
      cases sl <;> exact ⟨rfl, fun h => absurd h (by simp)⟩
    · rw [if_neg hx]
      cases sl <;> cases x <;> first | exact absurd rfl hx | exact this
  | calibrate s sl n =>
    refine ⟨hs.1, fun hw => ?_⟩
    by_cases hx : sl = x
    · subst hx; simp
    · simp only [PerSlot.get_set, hx, if_false] at hw ⊢
      exact hs.2 hw
  | wake s =>
    have h := State.takeActivity_keeps s
    have k := State.takeActivity_around s
    have hk : s.takeActivity.kindAt x = s.kindAt x := by simp [State.kindAt, k.role]
    unfold State.StoreSound
    rw [hk, h.2.2.2.2.2.2.2.1]
    simpa [State.drive, h.1, State.StoreSound] using hs
  | _ => exact hs

theorem Evolves.storesSound (h : Evolves loose s t) (hs : s.StoresSound) : t.StoresSound := fun x => h.storeSound x (hs x)

/-- The level on VSENSE is the one the command presents. -/
theorem Evolves.vsense (h : Evolves loose s t) : t.vsense = s.vsense := by
  induction h with
  | trans _ _ a b => exact b.trans a
  | moved s v st hv hm => obtain ⟨es, h⟩ := State.moveView_eq s v st; rw [h]; rfl
  | activity s => unfold State.noteActivity; split <;> rfl
  | wake s =>
    unfold State.takeActivity
    split
    · simp only
      split
      · rfl
      · split <;> rfl
    · rfl
  | _ => rfl

/-- A level that is CRITICAL stays so under a sample below 9.5 V (R136). -/
theorem Evolves.staysCritical (h : Evolves loose s t) (hl : s.smon.level = .critical) (hv : supplySample s.vsense < 95) :
    t.smon.level = .critical := by
  induction h with
  | trans h _ a b => exact b (a hl hv) (by rw [h.vsense]; exact hv)
  | moved s v st hv hm => obtain ⟨es, h⟩ := State.moveView_eq s v st; rw [h]; exact hl
  | activity s => simpa using hl
  | sample s m hb hu hr =>
    have : m.level = (applySample s.smon.level s.smon.recovery (supplySample s.vsense)).1 := by rw [← hr]
    rw [hl] at this
    simpa [applySample, hv] using this
  | wake s => rw [(State.takeActivity_keeps s).2.1]; exact hl
  | _ => exact hl

/-! ### Reports that find nothing to do -/

/-- A report that finds nothing to do, taken in its turn. -/
theorem cascade_skip (n : Nat) (r : Report) (rs ls : List Report) (s : State) (hr : r.isLate = false)
    (h : handle r s = (s, [])) : cascade (n + 1) (r :: rs) ls s = cascade n rs ls s := by simp [cascade, hr, h]

/-- A late report that finds nothing to do, taken when nothing else is left. -/
theorem cascade_skip_late (n : Nat) (l : Report) (ls : List Report) (s : State) (h : handle l s = (s, [])) :
    cascade (n + 1) [] (l :: ls) s = cascade n [] ls s := by simp [cascade, h]

/-- No report left. -/
@[simp] theorem cascade_done (n : Nat) (s : State) : cascade n [] [] s = s := by cases n <;> rfl

/-- A step whose effect reports nothing, with no activity in it, is its effect. -/
theorem settle_quiet (s : State) (h : s.amon.activityDue = false) : settle (s, []) = s := by
  simp [settle, State.takeActivity, h]

end Sys2Proof.Machine
end

