-- ==== Sys2Proof/Laws/PerInstr.lean ====
section
/-! SUPPORT. A law of every command as syntax: a well-formed command that brings a level on VSENSE into its step brings one that
the pin accepts, 0 to 3.6 V (chapter 11). -/

namespace Sys2Proof

/-- A well-formed command presents a level that VSENSE accepts. -/
def Laws.SenseInRange.Statement (i : Instr) : Prop := i.wf = true → ∀ v, i.vsense? = some v → v ≤ vsenseMax

theorem Laws.SenseInRange.resetRelease (straps : StrapPins) (vsense : Nat) (switches : SwitchPins) (occ : OccupancyPins) : Laws.SenseInRange.Statement (.resetRelease straps vsense switches occ) := by
  intro h v e; cases e; simp_all [Instr.wf, vsenseOk]
theorem Laws.SenseInRange.resetAssertion : Laws.SenseInRange.Statement .resetAssertion := by
  intro _ v e; cases e
theorem Laws.SenseInRange.syncEntry : Laws.SenseInRange.Statement .syncEntry := by
  intro _ v e; cases e
theorem Laws.SenseInRange.syncTimerExpiry : Laws.SenseInRange.Statement .syncTimerExpiry := by
  intro _ v e; cases e
theorem Laws.SenseInRange.ownClaimEcho (vsense : Nat) : Laws.SenseInRange.Statement (.ownClaimEcho vsense) := by
  intro h v e; cases e; simp_all [Instr.wf, vsenseOk]
theorem Laws.SenseInRange.peerClaim (vsense : Nat) : Laws.SenseInRange.Statement (.peerClaim vsense) := by
  intro h v e; cases e; simp_all [Instr.wf, vsenseOk]
theorem Laws.SenseInRange.ownCedeEcho (vsense : Nat) : Laws.SenseInRange.Statement (.ownCedeEcho vsense) := by
  intro h v e; cases e; simp_all [Instr.wf, vsenseOk]
theorem Laws.SenseInRange.peerCede (vsense : Nat) : Laws.SenseInRange.Statement (.peerCede vsense) := by
  intro h v e; cases e; simp_all [Instr.wf, vsenseOk]
theorem Laws.SenseInRange.ownDeclineEcho (vsense : Nat) : Laws.SenseInRange.Statement (.ownDeclineEcho vsense) := by
  intro h v e; cases e; simp_all [Instr.wf, vsenseOk]
theorem Laws.SenseInRange.peerDecline (vsense : Nat) : Laws.SenseInRange.Statement (.peerDecline vsense) := by
  intro h v e; cases e; simp_all [Instr.wf, vsenseOk]
theorem Laws.SenseInRange.ownStakeEcho (vsense : Nat) : Laws.SenseInRange.Statement (.ownStakeEcho vsense) := by
  intro h v e; cases e; simp_all [Instr.wf, vsenseOk]
theorem Laws.SenseInRange.peerStake (vsense : Nat) : Laws.SenseInRange.Statement (.peerStake vsense) := by
  intro h v e; cases e; simp_all [Instr.wf, vsenseOk]
theorem Laws.SenseInRange.statusTaken (vsense : Nat) : Laws.SenseInRange.Statement (.statusTaken vsense) := by
  intro h v e; cases e; simp_all [Instr.wf, vsenseOk]
theorem Laws.SenseInRange.vehicleTaken (vsense : Nat) : Laws.SenseInRange.Statement (.vehicleTaken vsense) := by
  intro h v e; cases e; simp_all [Instr.wf, vsenseOk]
theorem Laws.SenseInRange.sceneTaken (vsense : Nat) : Laws.SenseInRange.Statement (.sceneTaken vsense) := by
  intro h v e; cases e; simp_all [Instr.wf, vsenseOk]
theorem Laws.SenseInRange.stopTaken (vsense : Nat) : Laws.SenseInRange.Statement (.stopTaken vsense) := by
  intro h v e; cases e; simp_all [Instr.wf, vsenseOk]
theorem Laws.SenseInRange.learnTaken (vsense : Nat) : Laws.SenseInRange.Statement (.learnTaken vsense) := by
  intro h v e; cases e; simp_all [Instr.wf, vsenseOk]
theorem Laws.SenseInRange.resultTaken : Laws.SenseInRange.Statement .resultTaken := by
  intro _ v e; cases e
theorem Laws.SenseInRange.frameReceived (f : BusFrame) : Laws.SenseInRange.Statement (.frameReceived f) := by
  intro _ v e; cases e
theorem Laws.SenseInRange.transmissionAttempt : Laws.SenseInRange.Statement .transmissionAttempt := by
  intro _ v e; cases e
theorem Laws.SenseInRange.arbitrationLost : Laws.SenseInRange.Statement .arbitrationLost := by
  intro _ v e; cases e
theorem Laws.SenseInRange.attemptError (noAck : Bool) : Laws.SenseInRange.Statement (.attemptError noAck) := by
  intro _ v e; cases e
theorem Laws.SenseInRange.frameCompleted : Laws.SenseInRange.Statement .frameCompleted := by
  intro _ v e; cases e
theorem Laws.SenseInRange.busOffTimerExpiry (vsense : Nat) : Laws.SenseInRange.Statement (.busOffTimerExpiry vsense) := by
  intro h v e; cases e; simp_all [Instr.wf, vsenseOk]
theorem Laws.SenseInRange.generalSlotAssignment : Laws.SenseInRange.Statement .generalSlotAssignment := by
  intro _ v e; cases e
theorem Laws.SenseInRange.statusTimerExpiry : Laws.SenseInRange.Statement .statusTimerExpiry := by
  intro _ v e; cases e
theorem Laws.SenseInRange.expectancyTimerExpiry (peer : Role) (vsense : Nat) : Laws.SenseInRange.Statement (.expectancyTimerExpiry peer vsense) := by
  intro h v e; cases e; simp_all [Instr.wf, vsenseOk]
theorem Laws.SenseInRange.clashWindowExpiry : Laws.SenseInRange.Statement .clashWindowExpiry := by
  intro _ v e; cases e
theorem Laws.SenseInRange.holdTimerExpiry (vsense : Nat) : Laws.SenseInRange.Statement (.holdTimerExpiry vsense) := by
  intro h v e; cases e; simp_all [Instr.wf, vsenseOk]
theorem Laws.SenseInRange.waitTimerExpiry (pair : Nat) (vsense : Nat) : Laws.SenseInRange.Statement (.waitTimerExpiry pair vsense) := by
  intro h v e; cases e; simp_all [Instr.wf, vsenseOk]
theorem Laws.SenseInRange.controlInterval (vsense : Nat) : Laws.SenseInRange.Statement (.controlInterval vsense) := by
  intro h v e; cases e; simp_all [Instr.wf, vsenseOk]
theorem Laws.SenseInRange.hallPulse (slot : Slot) (vsense : Nat) : Laws.SenseInRange.Statement (.hallPulse slot vsense) := by
  intro h v e; cases e; simp_all [Instr.wf, vsenseOk]
theorem Laws.SenseInRange.brakeTimerExpiry (slot : Slot) (vsense : Nat) : Laws.SenseInRange.Statement (.brakeTimerExpiry slot vsense) := by
  intro h v e; cases e; simp_all [Instr.wf, vsenseOk]
theorem Laws.SenseInRange.stallTimerExpiry (slot : Slot) (vsense : Nat) : Laws.SenseInRange.Statement (.stallTimerExpiry slot vsense) := by
  intro h v e; cases e; simp_all [Instr.wf, vsenseOk]
theorem Laws.SenseInRange.blankingTimerExpiry (slot : Slot) (vsense : Nat) : Laws.SenseInRange.Statement (.blankingTimerExpiry slot vsense) := by
  intro h v e; cases e; simp_all [Instr.wf, vsenseOk]
theorem Laws.SenseInRange.jobTimerExpiry (slot : Slot) (vsense : Nat) : Laws.SenseInRange.Statement (.jobTimerExpiry slot vsense) := by
  intro h v e; cases e; simp_all [Instr.wf, vsenseOk]
theorem Laws.SenseInRange.calibrationWriteCompletion (slot : Slot) (vsense : Nat) : Laws.SenseInRange.Statement (.calibrationWriteCompletion slot vsense) := by
  intro h v e; cases e; simp_all [Instr.wf, vsenseOk]
theorem Laws.SenseInRange.quietTimerExpiry : Laws.SenseInRange.Statement .quietTimerExpiry := by
  intro _ v e; cases e
theorem Laws.SenseInRange.sampleTimerExpiry (vsense : Nat) : Laws.SenseInRange.Statement (.sampleTimerExpiry vsense) := by
  intro h v e; cases e; simp_all [Instr.wf, vsenseOk]
theorem Laws.SenseInRange.switchSample (pins : SwitchPins) (vsense : Nat) : Laws.SenseInRange.Statement (.switchSample pins vsense) := by
  intro h v e; cases e; simp_all [Instr.wf, vsenseOk]
theorem Laws.SenseInRange.occupancySample (pins : OccupancyPins) (vsense : Nat) : Laws.SenseInRange.Statement (.occupancySample pins vsense) := by
  intro h v e; cases e; simp_all [Instr.wf, vsenseOk]
theorem Laws.SenseInRange.alwaysOnSupplyLoss : Laws.SenseInRange.Statement .alwaysOnSupplyLoss := by
  intro _ v e; cases e

end Sys2Proof
end

