-- ==== Sys2Proof/Tests/Slice0.lean ====
section
/-! SUPPORT. The model's own tests. `smoke_*`: each check of WellFormed refuses an ill-formed command. `test_*`: values worked out in
the manual's own tables, or by hand from its rules. `witness_*`: a state and operands that meet every hypothesis of one clause of a
statement in Certificates/Slice0/Obligations.lean, with boundary values where a clause has a range. -/

open Sys2Proof Sys2Proof.Machine

namespace Sys2Proof.Tests

/-! ### Small stations -/

/-- A REFERENCED axis at rest. -/
def axisAt (span count : Nat) : Drive := { Drive.blank with axis := .idle, span := span, count := count, referenced := true }

/-- The gateway record of a vehicle at rest in park. -/
def inPark : Gateway := { speed := .still, park := true, known := true, hold := some 500 }

/-- A station strapped M60, in RUN at rest: SLIDE at 2400 of 3200, BACK at 600 of 2400, TIP at 6 of 900, every view OPEN. -/
def m60 : State :=
  { State.underReset Rcs.initial [] with
    station := .run, role := some .m60
    clu := { views := (clearanceList .m60).map (fun v => { v with state := .opened }), due := []
             envelopes := ⟨.limits 388 2620, .limits 243 1437, .limits 6 269⟩ }
    pmon := { peers := peerTable .m60, gateway := inPark, clashWindow := none, clashFlag := false, seq := 3,
              statusTimer := some 20 }
    adu := ⟨axisAt 3200 2400, axisAt 2400 600, axisAt 900 6⟩
    smon := { level := .ok, recovery := 0, driveSet := .all false, timer := some 200 }
    amon := { mode := .active, quiet := some 30000, activityDue := false }
    liu := { up := .all .initial, down := .all .initial, one := .initial, occupancy := .initial, occupancyTimer := some 50 } }

/-- The station with one frame in its receive queue. -/
def withRx (s : State) (f : Frame) (echo : Bool) : State := s.setBus { s.bus with rx := [⟨f, echo⟩] }

/-- The station with every view of a pair in a state. -/
def viewed (s : State) (p : Nat) (st : ViewState) : State := s.updView p (fun v => { v with state := st })

/-- A run to a count target at code 2. -/
def runTo (dir : Dir) (t : Int) : Run :=
  { origin := .scene, dir := dir, target := some t, speed := .code 2, secondLeg := false, pulsesLeft := none }

/-- An axis driving a run, as it stands right after its entry. -/
def driving (d : Drive) (r : Run) (stop : Int) : Drive :=
  { d with axis := .driving, dir := r.dir, duty := 300, brake := false, vset := 50, blankingTimer := none,
           stallTimer := some 120, jobTimer := some 27600, run := some r, stop := some stop }

/-- A SCENE job of the SLIDE with one claim entry. -/
def jobWith (es : List Entry) : Job :=
  { Job.free with
    active := true, origin := .scene 1, permille := some 900, requested := some 2880, target := some 2880, dir := .up,
    speed := .code 2, standing := .scene, entries := es, member := .noScene, handed := true }

/-- M60 with its SLIDE driving a job that crosses no band. -/
def slideDriving : State :=
  (({ m60 with smon := { m60.smon with driveSet := ⟨true, false, false⟩, timer := some 10 } }.setJob .s0 (jobWith [])).setDrive .s0
    (driving (axisAt 3200 2400) (runTo .up 2500) 2500))

/-- The state a command leaves. -/
def after (o : Host.Outcome State Fault Refusal) : Option State :=
  match o with
  | .next t => some t
  | _ => none

/-- A frame at the head of the queue that the station takes. -/
theorem takes {s : State} {kind : Nat} {echo : Bool} {f : Frame} {rest : List RxFrame} (r : Role)
    (h : (s.station = .sync ∨ s.station = .run) ∧ s.bus.rx = ⟨f, echo⟩ :: rest ∧ f.kind = kind ∧ s.role = some r ∧
      (echo = false → f.sender ≠ roleCode r)) : TakesFrame s kind echo f rest :=
  ⟨h.1, h.2.1, h.2.2.1, fun he x hx => by rw [h.2.2.2.1] at hx; cases hx; exact h.2.2.2.2 he⟩

/-! ### WellFormed refuses -/

theorem smoke_vsense_too_high : (Instr.sampleTimerExpiry 361).wf = false := by decide
theorem smoke_vsense_highest : (Instr.sampleTimerExpiry 360).wf = true := by decide
theorem smoke_vsense_at_release :
    (Instr.resetRelease ⟨false, false, false⟩ 400 ⟨true, true, true, true, true, true, true⟩ ⟨true, true⟩).wf = false := by decide
theorem smoke_frame_too_long : (Instr.frameReceived ⟨true, 0, List.replicate 65 0⟩).wf = false := by decide
theorem smoke_frame_longest : (Instr.frameReceived ⟨true, 0, List.replicate 64 0⟩).wf = true := by decide
theorem smoke_pair_off_table : (Instr.waitTimerExpiry 24 100).wf = false := by decide
theorem smoke_pair_last : (Instr.waitTimerExpiry 23 100).wf = true := by decide

/-! ### Layout and arithmetic, from the tables of chapters 1 and 2 -/

/-- The worked extraction of 1.5: M60 takes entries 0, 2, 4, 6, 8 and 12. -/
theorem test_m60_clearance_list : (clearanceList .m60).map (·.pair) = [0, 2, 4, 6, 8, 12] := by decide

/-- The table of R9, code 3 of SLIDE and code 0 of STOW. -/
theorem test_cruise_table : cruise .slide 3 = 400 ∧ cruise .back 2 = 240 ∧ cruise .tip 1 = 120 ∧ cruise .stow 0 = 100 := by decide

/-- The worked case of 2.3: the envelope of M60 SLIDE at 2400 is [388, 2620]. -/
theorem test_envelope_two_cuts : countRange .slide 2400 3200 [⟨0, 120⟩, ⟨820, 1000⟩] true = (388, 2620) := by decide

/-- The seated clip of R24 on a BACK of span 2400: 1080. -/
theorem test_seated_clip : (countRange .back 600 2400 [] true).2 = 1080 := by decide

/-- The worked case of 2.5 at count 2600: setpoint 92 with LOCK set, 74 with LOCK clear. -/
theorem test_setpoint_approach : setpoint .slide 2 14 300 false = 92 ∧ setpoint .slide 2 8 300 false = 74 := by decide

/-- The worked case of 2.5: the occupied interval [812, 818] at 2600 with LOCK clear. -/
theorem test_occupied_interval :
    occupiedInterval 2600 (reachCount (.limits 388 2620) .up 2600 (reachBound .slide .driving false 74)) 3200 = ⟨812, 818⟩ := by
  decide

/-- The table of R29: 2560, 157, 448 and 288. -/
theorem test_yield_targets :
    yieldTarget .slide ⟨820, 1000⟩ 2880 3200 = some 2560 ∧ yieldTarget .slide ⟨820, 1000⟩ 180 200 = some 157 ∧
      yieldTarget .slide ⟨0, 120⟩ 320 3200 = some 448 ∧ yieldTarget .stow ⟨200, 1000⟩ 800 1600 = some 288 := by decide

/-- The table of R34: 27600, 5333 and 322000 ms. -/
theorem test_job_limits : jobLimit .slide 1280 = 27600 ∧ jobLimit .tip 100 = 5333 ∧ jobLimit .stow 8000 = 322000 := by decide

/-- The gains of R97 for an error of 100: 125 in SEEK and 31 in TRACK for SLIDE. -/
theorem test_duty_gains : nextDuty .slide .seek 300 100 = 425 ∧ nextDuty .slide .track 300 100 = 331 := by decide

/-- The settling case of 5.4, interval 9: TRACK stays, and the duty falls by 7 to 727. -/
theorem test_track_holds : modeTest .track true 3 (-25) 300 = (.track, true, 3) ∧ nextDuty .slide .track 734 (-25) = 727 := by decide

/-! ### Frames, from the tables of 9.1 and 9.7 -/

/-- The identifiers of R146: STAKE, STATUS and RESULT of M60, and the gateway's VEHICLE. -/
theorem test_identifiers :
    (encode 2 (.stake 4)).ident.toNat = 288 ∧ identOf kStatus 2 = 1184#11 ∧ identOf kResult 2 = 1312#11 ∧
      (encode 7 (.vehicle (some .still) true)).ident.toNat = 1136 := by decide

/-- The STATUS worked out at the end of 9.7: bytes 0 to 6 and the record of slot 0. -/
theorem test_status_bytes :
    ((encode 2 (.status
      { seq := 8, mode := .active, occupied := false, unheard := false, conflict := false, clash := false,
        vehicleUnknown := false, level := .ok, missSet := 0, holdSet := 0b1000000000001#24, scene := 1
        slots := ⟨⟨.idle, false, true, false, .down, ⟨100, 100⟩⟩, ⟨.idle, false, true, false, .down, ⟨0, 0⟩⟩,
          ⟨.noAxis, false, false, false, .down, ⟨0, 0⟩⟩⟩ })).data.take 13).map BitVec.toNat
      = [8, 0, 0, 1, 16, 0, 1, 0, 17, 100, 0, 100, 0] := by decide

/-- R155's table read back from bytes written by hand: SLIDE DRIVING up with LOCK, interval [812, 818]. -/
theorem test_status_read :
    (slotAt ⟨1184#11, [0, 0, 0, 0, 0, 0, 15, 0, 90, 44, 3, 50, 3]⟩ 8)
      = { axis := .driving, lock := true, referenced := true, disabled := false, dir := .up, interval := ⟨812, 818⟩ } := by decide

/-! ### Reset and start-up -/

/-- The pins of a station strapped M60 (code 2), every switch released and the seat empty. -/
def strapM60 : StrapPins := ⟨false, true, false⟩
def released : SwitchPins := ⟨true, true, true, true, true, true, true⟩

/-- A store with a valid record in slot 0 (span 3200, role M60) and a warm domain. -/
def warmStore : Rcs :=
  { Rcs.initial with
    marker := true, role := some .m60, retained := ⟨⟨2880, true⟩, ⟨7, true⟩, ⟨0, false⟩⟩
    calibration := ⟨⟨3200, some .m60, true⟩, ⟨199, some .m60, true⟩, ⟨0, none, false⟩⟩ }

/-- R167's table: after a warm start the SLIDE keeps 2880 and REFERENCED; a BACK whose stored span is 199 is DISABLED and keeps its
count without REFERENCED. -/
theorem test_warm_start :
    (after (exec (.resetRelease strapM60 120 released ⟨true, true⟩) (State.underReset warmStore []))).map
        (fun t => ((t.drive .s0).count, (t.drive .s0).referenced, (t.drive .s1).disabled, (t.drive .s1).count,
          (t.drive .s1).referenced, t.smon.level))
      = some (2880, true, true, 7, false, .ok) := by decide

theorem witness_ResetReleaseStarts :
    (State.underReset warmStore []).station = .held ∧
      roleOf (4 * strapM60.role2.toNat + 2 * strapM60.role1.toNat + strapM60.role0.toNat) = some .m60 := by decide

theorem witness_ResetReleaseInvalidStrap :
    State.reset.station = .held ∧ (⟨true, true, false⟩ : StrapPins).role2 = true ∧
      (⟨true, true, false⟩ : StrapPins).role1 = true := by decide

/-- A station in START as a cold release leaves it. -/
def inStart : State := (after (exec (.resetRelease strapM60 104 released ⟨true, true⟩) (State.underReset warmStore []))).getD State.reset

theorem witness_SyncEntryBuildsFirstStatus :
    inStart.station = .start ∧ inStart.role = some .m60 ∧ inStart.smon.level ≠ .unknown ∧ inStart.pmon.seq = 0 ∧
      inStart.amon.mode = .active ∧ (∀ v ∈ inStart.clu.views, v.state = .barred) ∧
      (∀ p ∈ inStart.pmon.peers, p.state = .absent) ∧
      ∀ sl : Slot, (inStart.kindAt sl).isSome = true → (inStart.drive sl).axis = .idle := by
  refine ⟨by decide, by decide, by decide, by decide, by decide, by decide, by decide, ?_⟩
  intro sl; cases sl <;> decide

/-- A station in SYNC beside a PRESENT RL that advertises pair 4 held and its BACK at 1000; FL is still ABSENT. -/
def inSync : State :=
  { m60 with
    station := .sync, syncTimer := some 500
    clu := { m60.clu with views := clearanceList .m60 }
    pmon := { m60.pmon with
      peers := m60.pmon.peers.map (fun p =>
        if p.role = .rl then { p with state := .present, holdSet := 16#24, intervals := .all ⟨1000, 1000⟩ } else p) } }

theorem witness_SyncTimerDerivesViews :
    inSync.station = .sync ∧ inSync.syncTimer.isSome = true ∧ inSync.role = some .m60 ∧ (inSync.clu.views.map (·.pair)).Nodup ∧
      (∀ sl : Slot, (inSync.job sl).active = false ∧ (inSync.drive sl).axis ≠ .driving ∧ (inSync.drive sl).axis ≠ .braking ∧
        (inSync.drive sl).axis ≠ .holding) ∧
      (∃ v, inSync.view? 4 = some v ∧ v.other = .peer .rl .back ⟨600, 1000⟩ ∧ inSync.isPresent .rl = true ∧
        inSync.peerHolds v = true ∧ inSync.ownInside v = false) ∧
      (∃ v, inSync.view? 6 = some v ∧ v.other = .peer .rl .stow ⟨200, 1000⟩ ∧ inSync.peerHolds v = false) ∧
      ∃ v, inSync.view? 0 = some v ∧ v.other = .peer .fl .back ⟨0, 150⟩ ∧ inSync.isPresent .fl = false :=
  ⟨by decide, by decide, rfl, by decide, by intro sl; cases sl <;> decide, ⟨_, rfl, by decide, by decide, by decide, by decide⟩,
    ⟨_, rfl, by decide, by decide⟩, ⟨_, rfl, by decide, by decide⟩⟩

/-- The same station with its SLIDE at 900 permille, inside its band of pair 4, which RL does not hold. -/
def inSyncInside : State :=
  (inSync.updPeer .rl (fun p => { p with holdSet := 0#24 })).setDrive .s0 (axisAt 3200 2880)

theorem witness_stake_at_sync_exit :
    (∃ v, inSyncInside.view? 4 = some v ∧ v.other = .peer .rl .back ⟨600, 1000⟩ ∧ inSyncInside.isPresent .rl = true ∧
      inSyncInside.peerHolds v = false ∧ inSyncInside.ownInside v = true ∧ v.inFlight = none ∧ inSyncInside.bus.busOff = none ∧
      inSyncInside.unheard = false) ∧
    ∃ v, inSyncInside.view? 8 = some v ∧ v.other = .self .s2 ⟨300, 1000⟩ :=
  ⟨⟨_, rfl, by decide, by decide, by decide, by decide, rfl, rfl, by decide⟩, _, rfl, by decide⟩

/-- R60, case 4: the STAKE of pair 4 from M60 has identifier 2 × 128 + 2 × 16 = 288. -/
theorem test_stake_at_sync_exit :
    (after (exec .syncTimerExpiry inSyncInside)).map
        (fun t => (t.bus.general.map (fun f => (f.ident.toNat, f.byte 0)), (t.view? 4).map (·.state), (t.view? 8).map (·.state)))
      = some ([(288, 4)], some .opened, some .opened) := by decide

/-- The worked start of 10.6: RL holds pair 4, M60 does not; at SYNC exit the view is PEER, and that of FL, never heard, BARRED. -/
theorem test_sync_exit_views :
    (after (exec .syncTimerExpiry inSync)).map (fun t => ((t.view? 4).map (·.state), (t.view? 0).map (·.state)))
      = some (some .peer, some .barred) := by decide

/-! ### Passage frames -/

/-- A passage frame of pair 4 from a sender, by its payload. -/
def own (p : Payload) : Frame := encode 2 p
def ofRl (p : Payload) : Frame := encode 4 p

theorem witness_own_claim_open : TakesFrame (withRx m60 (own (.claim 4 (some .scene))) true) kClaim true (own (.claim 4 (some .scene))) [] :=
  takes .m60 (by decide)
theorem witness_own_claim_view :
    ∃ v, (withRx (viewed m60 4 .peer) (own (.claim 4 (some .scene))) true).view? ((own (.claim 4 (some .scene))).byte 0) = some v ∧
      v.peerRole.isSome = true ∧ v.state = .peer := ⟨_, rfl, by decide, by decide⟩
theorem witness_peer_claim_own :
    TakesFrame (withRx (viewed m60 4 .own) (ofRl (.claim 4 (some .jog))) false) kClaim false (ofRl (.claim 4 (some .jog))) [] ∧
      ∃ v, (withRx (viewed m60 4 .own) (ofRl (.claim 4 (some .jog))) false).view? 4 = some v ∧
        v.peerRole.map roleCode = some (ofRl (.claim 4 (some .jog))).sender ∧ v.state = .own :=
  ⟨takes .m60 (by decide), _, rfl, by decide, by decide⟩
/-- R39: the claim of a job that does not hold its axis, with its entry CLAIMED and the band ahead. -/
theorem witness_own_claim_entry (st : ViewState) :
    let s := withRx ((viewed m60 4 st).setJob .s0 { Job.free with active := true, dir := .up, entries := [⟨4, .claimed⟩] })
      (own (.claim 4 (some .scene))) true
    ∃ v, s.view? 4 = some v ∧ v.state = st ∧ v.peerRole.isSome = true ∧ (s.kindAt v.slot).isSome = true ∧ v.cedeDue = false ∧
      (s.drive v.slot).axis ≠ .holding ∧ (s.job v.slot).active = true ∧ (s.job v.slot).entryOf v.pair = some .claimed ∧
      passedBand (s.job v.slot).dir (staticInterval (s.drive v.slot).count (s.drive v.slot).span) v.band = false ∧
      v.band.x1 ≤ 1000 :=
  ⟨_, rfl, rfl, rfl, rfl, rfl, (by decide : AxisState.idle ≠ .holding), rfl, rfl,
    (by decide : passedBand .up (staticInterval (2400 : Nat) (3200 : Nat)) ⟨820, 1000⟩ = false), (by decide : 820 ≤ 1000)⟩

/-- M60 with its SLIDE at a count, pair 4 held with a claim waiting behind it, and whether its yield has been asked for. -/
def yielding (count : Nat) (st : Standing) (asked : Bool) : State :=
  (m60.setDrive .s0 (axisAt 3200 count)).updView 4 (fun v => { v with state := .ownWait, waiter := some st, yieldAsked := asked })

theorem witness_yield_evaluation (count : Nat) (st : Standing) (asked : Bool) :
    ∃ v, (yielding count st asked).view? 4 = some v ∧ v.peerRole.isSome = true ∧ v.state = .ownWait ∧ v.waiter = some st ∧
      v.yieldAsked = asked ∧ v.slot = .s0 ∧ v.inFlight = none ∧ (yielding count st asked).bus.busOff = none ∧
      (yielding count st asked).station = .run ∧ (yielding count st asked).role = some .m60 ∧
      ((yielding count st asked).job .s0).active = false ∧ (yielding count st asked).queuedAt .s0 = none :=
  ⟨_, rfl, rfl, rfl, rfl, rfl, rfl, rfl, rfl, rfl, rfl, rfl, rfl⟩
theorem witness_yield_deferred :
    (((yielding 2880 .scene false).setJob .s0 { Job.free with active := true }).job .s0).active = true ∧
      (((yielding 2880 .scene true).setJob .s0 { Job.free with active := true, origin := .yield 4 }).job .s0).origin = .yield 4 :=
  ⟨rfl, rfl⟩
theorem witness_yield_inside :
    (∃ v, (yielding 2880 .scene false).view? 4 = some v ∧ (yielding 2880 .scene false).ownInside v = true) ∧
      ∃ v, (yielding 2620 .scene false).view? 4 = some v ∧ (yielding 2620 .scene false).ownInside v = false :=
  ⟨⟨_, rfl, by decide⟩, _, rfl, by decide⟩

/-- R56 and R57: STANDING for a jog, PINNED, CHAIN once a yield has ended inside, and otherwise a yield to 2560 (the table of R29). -/
theorem test_decline_reasons :
    [yielding 2880 .jog false, (yielding 2880 .scene false).setPin .s0 true, yielding 2880 .scene true].map (fun s =>
        (s.evalYield 4).1.bus.general.map (fun f => (f.ident.toNat, f.byte 0, f.byte 1)))
      = [[(672, 4, 5)], [(672, 4, 0)], [(672, 4, 6)]] := by decide
theorem test_yield_started :
    let t := settle ((yielding 2880 .scene false).evalYield 4)
    (t.job .s0).origin = .yield 4 ∧ (t.job .s0).requested = some 2560 ∧ (t.job .s0).speed = .code 1 ∧
      (t.job .s0).entries = [⟨4, .held⟩] := by decide

theorem witness_YieldJob :
    let s := yielding 2880 .scene false
    ∃ v, s.view? 4 = some v ∧ v.bandFor .s0 = some ⟨820, 1000⟩ ∧ s.kindAt .s0 = some .slide ∧
      yieldTarget .slide ⟨820, 1000⟩ (s.drive .s0).count (s.drive .s0).span = some 2560 ∧ (s.job .s0).active = false ∧
      s.queuedAt .s0 = none := ⟨_, rfl, by decide, rfl, by decide, rfl, rfl⟩

/-- M60's BACK at 241 of 2400, its interval [100, 101] across the upper edge of pair 6 (0 to 100), which the inequality of R30 leaves out. -/
theorem witness_straddling_yield :
    let s := (viewed m60 6 .ownWait).setDrive .s1 (axisAt 2400 241)
    (∃ v, s.view? 6 = some v ∧ v.bandFor .s1 = some ⟨0, 100⟩) ∧ s.kindAt .s1 = some .back ∧
      yieldTarget .back ⟨0, 100⟩ 241 2400 = some 288 ∧ ¬ceilDiv (min 241 288 * 1000) 2400 ≤ 100 ∧
      (staticInterval 241 2400).meets ⟨0, 100⟩ = true ∧ (s.pairsOf .s1).length ≤ 4 :=
  ⟨⟨_, rfl, by decide⟩, rfl, by decide, by decide, by decide, by decide⟩

/-- R57: the yielded pair stands in the crossing list, HELD by the OWN+WAIT view; from 243 the axis is outside. -/
theorem test_straddling_yield :
    (let t := settle (((viewed m60 6 .ownWait).setDrive .s1 (axisAt 2400 241)).startYield 6 .s1)
     (t.job .s1).entries = [⟨6, .held⟩]) ∧ crosses 243 288 2400 ⟨0, 100⟩ = false := by decide

/-- R53: the SLIDE at 750 permille is outside its band of pair 4, and at 900 permille inside it. -/
theorem witness_release :
    let s := viewed m60 4 .own
    let i := s.occupiedAt .s0
    (∃ v, s.view? 4 = some v ∧ v.peerRole.isSome = true ∧ v.slot = .s0 ∧ i.high < (v.band.x1 : Int) ∧
      ((s.markPassed .s0).job .s0).needs (s.drive .s0) 4 v.band = false ∧ v.inFlight = none ∧ s.bus.busOff = none) ∧
    (∃ v, (yielding 2880 .scene false).view? 4 = some v ∧ ((yielding 2880 .scene false).occupiedAt .s0).high ≥ (v.band.x1 : Int)) ∧
    (let u := m60.setJob .s0 (jobWith [⟨4, .held⟩])
     (u.job .s0).active = true ∧ (u.job .s0).origin ≠ .learn) :=
  ⟨⟨_, rfl, rfl, rfl, by decide, by decide, rfl, rfl⟩, ⟨_, rfl, by decide⟩, rfl, by decide⟩

/-- R31 and R50: a FAILED entry keeps its pair needed, and one HELD before it; one HELD behind it, or passed, does not. -/
theorem test_needs :
    let j := jobWith [⟨0, .passed⟩, ⟨2, .held⟩, ⟨4, .failed .wait⟩, ⟨6, .held⟩, ⟨8, .failed .wait⟩]
    [0, 2, 4, 6, 8].map (fun p => j.needs (axisAt 3200 2400) p ⟨950, 1000⟩) = [false, true, true, false, true] ∧
      j.active = true ∧ j.origin ≠ .learn := by decide

/-- R53 and R41: the CEDE of the release has identifier 4 × 128 + 2 × 16 = 544. -/
theorem test_release_cedes :
    ((viewed m60 4 .own).release 4).1.bus.general.map (fun f => f.ident.toNat) = [544] := by decide

theorem witness_own_cede :
    TakesFrame (withRx (viewed m60 4 .ownWait) (own (.cede 4)) true) kCede true (own (.cede 4)) [] ∧
      ∃ v, (withRx (viewed m60 4 .ownWait) (own (.cede 4)) true).view? 4 = some v ∧ v.peerRole.isSome = true ∧ v.state = .ownWait :=
  ⟨takes .m60 (by decide), _, rfl, by decide, by decide⟩
theorem witness_peer_cede :
    TakesFrame (withRx (viewed m60 4 .queued) (ofRl (.cede 4)) false) kCede false (ofRl (.cede 4)) [] ∧
      ∃ v, (withRx (viewed m60 4 .queued) (ofRl (.cede 4)) false).view? 4 = some v ∧
        v.peerRole.map roleCode = some (ofRl (.cede 4)).sender ∧ v.state = .queued :=
  ⟨takes .m60 (by decide), _, rfl, by decide, by decide⟩
theorem witness_own_decline :
    TakesFrame (withRx (viewed m60 4 .ownWait) (own (.decline 4 (some .chain))) true) kDecline true
        (own (.decline 4 (some .chain))) [] ∧
      ∃ v, (withRx (viewed m60 4 .ownWait) (own (.decline 4 (some .chain))) true).view? 4 = some v ∧ v.peerRole.isSome = true ∧
        v.state = .ownWait :=
  ⟨takes .m60 (by decide), _, rfl, by decide, by decide⟩
theorem witness_own_decline_late :
    ∃ v, (withRx (viewed m60 4 .own) (own (.decline 4 (some .chain))) true).view? 4 = some v ∧ v.peerRole.isSome = true ∧
      v.state ≠ .ownWait := ⟨_, rfl, by decide, by decide⟩
theorem witness_peer_decline :
    TakesFrame (withRx (viewed m60 4 .queued) (ofRl (.decline 4 (some .pinned))) false) kDecline false
        (ofRl (.decline 4 (some .pinned))) [] ∧
      ∃ v, (withRx (viewed m60 4 .queued) (ofRl (.decline 4 (some .pinned))) false).view? 4 = some v ∧
        v.peerRole.map roleCode = some (ofRl (.decline 4 (some .pinned))).sender ∧ v.state = .queued ∧
        (reasonOf ((ofRl (.decline 4 (some .pinned))).byte 1)).isSome = true :=
  ⟨takes .m60 (by decide), _, rfl, by decide, by decide, by decide⟩
/-- M60 in RUN behind RL for pair 4, its SLIDE's one claim waiting there, with RL's DECLINE at the head of its queue. -/
def declined : State :=
  withRx ((viewed m60 4 .queued).setJob .s0 (jobWith [⟨4, .claimed⟩])) (ofRl (.decline 4 (some .pinned))) false

theorem witness_decline_fails_claim :
    ∃ v, declined.view? 4 = some v ∧ v.state = .queued ∧ reasonOf ((ofRl (.decline 4 (some .pinned))).byte 1) = some .pinned ∧
      (declined.job v.slot).active = true ∧ (declined.job v.slot).origin ≠ .learn ∧
      (declined.job v.slot).entryOf v.pair = some .claimed ∧ (declined.drive v.slot).axis ≠ .holding :=
  ⟨_, rfl, rfl, by decide, by decide, by decide, by decide, by decide⟩

/-- R44 and R50: the claim fails with the reason, and the target is cut to floor(819 × 3.2) = 2620. -/
theorem test_decline_fails_claim :
    (after (exec (.peerDecline 120) declined)).map (fun t => ((t.job .s0).firstFailure, (t.job .s0).target))
      = some (some (.declined .pinned), some 2620) := by decide

/-- M60 behind RL for pair 4, its SLIDE HOLDING at 2608 for that claim alone in a jog to `x`, with RL's DECLINE at the head of its queue. -/
def holdingJog (x : Int) : State :=
  (declined.setDrive .s0 { axisAt 3200 2608 with axis := .holding, run := some { runTo .up x with origin := .jog } }).setJob .s0
    { jobWith [⟨4, .claimed⟩] with origin := .jog, permille := none, requested := some x, target := some x, standing := .jog }

/-- The stop point before the cut target, min(2620, 2620 − 12) = 2608, is the count itself. -/
theorem witness_decline_ends_holding :
    let s := holdingJog 2615
    ∃ v, s.view? 4 = some v ∧ v.state = .queued ∧ v.slot = .s0 ∧ v.band = ⟨820, 1000⟩ ∧ s.kindAt .s0 = some .slide ∧
      (s.job .s0).entries = [⟨4, .claimed⟩] ∧ (s.job .s0).member = .noScene ∧ (s.job .s0).cause = none ∧
      (s.job .s0).firstFailure = none ∧ s.queuedAt .s0 = none ∧ (s.drive .s0).axis = .holding ∧
      s.envelopeFor .s0 = .limits 388 2620 ∧
      beyond .up (stopPoint .up (cutTarget .up 2615 v.band 3200) 388 2620 (coastAllowance .slide false)) 2608 = false ∧
      s.clu.views.length ≤ 10 ∧ (s.clu.views.map (·.pair)).Nodup ∧
      ∀ w ∈ s.pairsOf .s0, w.waiting = none ∧ (w.pair ≠ v.pair →
        w.state ≠ .own ∧ w.state ≠ .ownWait ∧ w.state ≠ .heldA ∧ w.state ≠ .heldB) :=
  ⟨_, rfl, rfl, rfl, rfl, rfl, rfl, rfl, rfl, rfl, rfl, rfl, by decide, by decide, by decide, by decide, by decide⟩

/-- R123 and R114: the jog ends at once, DECLINED from 7 counts (Kc is 6) and DONE from 6. -/
theorem test_decline_ends_holding :
    [2615, 2614].map (fun x => (after (exec (.peerDecline 120) (holdingJog x))).map
        (fun t => ((t.job .s0).active, (t.job .s0).outcome, (t.drive .s0).axis)))
      = [some (false, some (.declined .pinned), .idle), some (false, some .done, .idle)] := by decide

theorem witness_own_stake :
    TakesFrame (withRx (viewed m60 4 .peer) (own (.stake 4)) true) kStake true (own (.stake 4)) [] ∧
      ∃ v, (withRx (viewed m60 4 .peer) (own (.stake 4)) true).view? 4 = some v ∧ v.peerRole.isSome = true ∧ v.state = .peer :=
  ⟨takes .m60 (by decide), _, rfl, by decide, by decide⟩
theorem witness_peer_stake :
    TakesFrame (withRx (viewed m60 4 .own) (ofRl (.stake 4)) false) kStake false (ofRl (.stake 4)) [] ∧
      ∃ v, (withRx (viewed m60 4 .own) (ofRl (.stake 4)) false).view? 4 = some v ∧
        v.peerRole.map roleCode = some (ofRl (.stake 4)).sender ∧ v.state = .own :=
  ⟨takes .m60 (by decide), _, rfl, by decide, by decide⟩

/-- The SLIDE driving up inside the band of pair 4, for a job with one entry. -/
def conflictComing (st : EntryStatus) : State :=
  (slideDriving.setJob .s0 (jobWith [⟨4, st⟩])).setDrive .s0 { driving (axisAt 3200 2880) (runTo .up 2900) 2900 with dir := .up }

theorem conflictComing_inside (st : EntryStatus) : ((conflictComing st).view? 4).map (conflictComing st).ownInside = some true :=
  (rfl : _ = ((conflictComing .held).view? 4).map (conflictComing .held).ownInside).trans (by decide)

theorem witness_EnterConflict (st : EntryStatus) :
    ∃ v, (conflictComing st).view? 4 = some v ∧ v.peerRole.isSome = true ∧ v.state ≠ .conflict ∧
      (conflictComing st).ownInside v = true ∧ (conflictComing st).DrivesJob v.slot ∧
      ((conflictComing st).drive v.slot).dir = ((conflictComing st).job v.slot).dir ∧
      ((conflictComing st).job v.slot).origin ≠ .learn ∧ ((conflictComing st).job v.slot).entries = [⟨4, st⟩] :=
  ⟨_, rfl, rfl, (by decide : ViewState.opened ≠ .conflict), Option.some.inj (conflictComing_inside st),
    ⟨rfl, rfl, rfl, rfl, rfl, rfl, rfl, rfl, rfl, fun r h => by cases h; decide⟩, rfl, (by decide : JobOrigin.scene 1 ≠ .learn), rfl⟩

/-- Pair 4 in CONFLICT with a PRESENT RL, and self pair 8 in CONFLICT. -/
def inConflict : State := viewed (viewed (m60.updPeer .rl (fun p => { p with state := .present })) 4 .conflict) 8 .conflict

theorem witness_retest :
    (∃ v, inConflict.view? 4 = some v ∧ v.state = .conflict ∧ v.other = .peer .rl .back ⟨600, 1000⟩ ∧ inConflict.isPresent .rl = true) ∧
    (∃ v, (viewed m60 4 .conflict).view? 4 = some v ∧ v.state = .conflict ∧ (viewed m60 4 .conflict).isPresent .rl = false) ∧
    (∃ v, m60.view? 4 = some v ∧ v.state ≠ .conflict) ∧
    ∃ v, inConflict.view? 8 = some v ∧ v.state = .conflict ∧ v.other = .self .s2 ⟨300, 1000⟩ :=
  ⟨⟨_, rfl, rfl, by decide, by decide⟩, ⟨_, rfl, rfl, by decide⟩, ⟨_, rfl, by decide⟩, _, rfl, rfl, by decide⟩

/-- R59's table, with the own SLIDE at 750 permille outside its band and RL's BACK advertised at 0 outside its own: OPEN. -/
theorem test_retest_opens : ((inConflict.retest 4).1.view? 4).map (·.state) = some .opened := by decide

/-- An own frame of a self pair, and a peer's frame of a pair it does not share. -/
theorem witness_PassageNotApplied :
    (TakesFrame (withRx m60 (own (.cede 8)) true) kCede true (own (.cede 8)) [] ∧
      ∀ v, (withRx m60 (own (.cede 8)) true).view? 8 = some v → v.peerRole = none) ∧
    (TakesFrame (withRx m60 (ofRl (.claim 0 (some .scene))) false) kClaim false (ofRl (.claim 0 (some .scene))) [] ∧
      ∀ v, (withRx m60 (ofRl (.claim 0 (some .scene))) false).view? 0 = some v →
        v.peerRole.map roleCode ≠ some (ofRl (.claim 0 (some .scene))).sender) :=
  ⟨⟨takes .m60 (by decide), fun v h => by cases h; decide⟩, takes .m60 (by decide), fun v h => by cases h; decide⟩

/-- The table of 3.2, one column at a time: own CLAIM echo in OPEN, peer CLAIM in OWN, own CEDE echo in OWN+WAIT, peer CEDE in
QUEUED, own DECLINE echo in OWN+WAIT, peer DECLINE in QUEUED, own STAKE echo in PENDING, peer STAKE in OWN outside the band. -/
def viewAfter (c : Instr) (st : ViewState) (f : Frame) (echo : Bool) : Option ViewState :=
  ((after (exec c (withRx (viewed m60 4 st) f echo))).bind (fun t => t.view? 4)).map (·.state)

theorem test_own_claim_echo : viewAfter (.ownClaimEcho 120) .opened (own (.claim 4 (some .scene))) true = some .own := by decide
theorem test_own_claim_echo_behind_peer :
    viewAfter (.ownClaimEcho 120) .peer (own (.claim 4 (some .scene))) true = some .queued := by decide
theorem test_peer_claim : viewAfter (.peerClaim 120) .pending (ofRl (.claim 4 (some .scene))) false = some .peer := by decide
theorem test_own_cede_echo : viewAfter (.ownCedeEcho 120) .ownWait (own (.cede 4)) true = some .peer := by decide
theorem test_peer_cede : viewAfter (.peerCede 120) .queued (ofRl (.cede 4)) false = some .own := by decide
theorem test_own_decline_echo : viewAfter (.ownDeclineEcho 120) .ownWait (own (.decline 4 (some .chain))) true = some .own := by decide
theorem test_peer_decline : viewAfter (.peerDecline 120) .queued (ofRl (.decline 4 (some .pinned))) false = some .peer := by decide
theorem test_own_stake_echo : viewAfter (.ownStakeEcho 120) .pending (own (.stake 4)) true = some .own := by decide
/-- R45 behind a peer: CONFLICT where a PRESENT RL is inside its band of 600 to 1000, and OWN where the record shows it there but is
not PRESENT (notes/assumptions/44.md). -/
theorem test_own_stake_inside :
    [Presence.present, .lost].map (fun st =>
        ((after (exec (.ownStakeEcho 120) (withRx
          ((viewed m60 4 .peer).updPeer .rl (fun p => { p with state := st, intervals := .all ⟨1000, 1000⟩ }) |>.setDrive .s0
            (axisAt 3200 2880)) (own (.stake 4)) true))).bind (fun t => t.view? 4)).map (·.state))
      = [some .conflict, some .own] := by decide
theorem test_peer_stake : viewAfter (.peerStake 120) .own (ofRl (.stake 4)) false = some .peer := by decide

/-! ### Claims -/

theorem witness_OpenPairIsClaimed :
    let s := m60.setJob .s0 (jobWith [⟨4, .needed⟩])
    s.role = some .m60 ∧ (s.job .s0).active = true ∧ (s.job .s0).entryOf 4 = some .needed ∧
      (∃ v, s.view? 4 = some v ∧ v.peerRole.isSome = true ∧ v.state = .opened ∧ v.inFlight = none ∧ v.cedeDue = false) ∧
      s.unheard = false ∧ s.station = .run ∧ s.bus.busOff = none :=
  ⟨by decide, by decide, by decide, ⟨_, rfl, by decide, by decide, by decide, by decide⟩, by decide, by decide, by decide⟩

/-- A NEEDED entry of the SLIDE's job on pair 4 in a state, with a frame of the pair in flight or none. -/
def deciding (st : ViewState) (sent : Option PassageKind) : State :=
  (m60.setJob .s0 (jobWith [⟨4, .needed⟩])).updView 4 (fun v => { v with state := st, inFlight := sent })

theorem witness_decide_rows (st : ViewState) (sent : Option PassageKind) :
    (∃ v, (deciding st sent).view? 4 = some v ∧ v.peerRole.isSome = true ∧ v.state = st ∧ v.inFlight = sent ∧ v.cedeDue = false) ∧
      (deciding st sent).role = some .m60 ∧ ((deciding st sent).job .s0).active = true ∧
      ((deciding st sent).job .s0).entryOf 4 = some .needed ∧ (deciding st sent).unheard = false ∧
      (deciding st sent).station = .run ∧ (deciding st sent).bus.busOff = none :=
  ⟨⟨_, rfl, rfl, rfl, rfl, rfl⟩, rfl, rfl, rfl, rfl, rfl, rfl⟩

/-- R48's table: a CLAIM of identifier 3 × 128 + 2 × 16 = 416 behind RL, HELD on the own passage, PEER_LOST on a barred one, and NEEDED
behind a frame in flight. -/
theorem test_decide_rows :
    [deciding .peer none, deciding .own none, deciding .barred none, deciding .opened (some .cede)].map (fun s =>
        let t := settle (s.decideEntry .s0 4)
        ((t.job .s0).entries.map (·.status), t.bus.general.map (·.ident.toNat)))
      = [([.claimed], [416]), ([.held], []), ([.failed .peerLost], []), ([.needed], [])] := by decide

theorem witness_FailedClaimCutsTarget :
    let s := m60.setJob .s0 (jobWith [⟨0, .held⟩, ⟨4, .claimed⟩, ⟨2, .needed⟩])
    (s.job .s0).active = true ∧ (s.job .s0).origin ≠ .learn ∧
      (s.job .s0).entries = [⟨0, .held⟩] ++ ⟨4, .claimed⟩ :: [⟨2, .needed⟩] ∧ (∀ e ∈ [(⟨0, .held⟩ : Entry)], e.pair ≠ 4) ∧
      (∃ v b, s.view? 4 = some v ∧ v.bandFor .s0 = some b) ∧ (s.job .s0).target = some 2880 :=
  ⟨by decide, by decide, by decide, by decide, ⟨_, _, rfl, rfl⟩, by decide⟩

/-- R50 on M60 SLIDE and pair 4 (820..1000): the target is cut to floor(819 × 3.2) = 2620. -/
theorem test_cut_target :
    (((m60.setJob .s0 (jobWith [⟨4, .claimed⟩])).failEntry .s0 4 (.declined .pinned)).1.job .s0).target = some 2620 := by decide

/-- The self pair 8 of M60, claimed by both its axes. -/
def selfClaims (a b : Option Standing) : State := m60.updView 8 (fun v => { v with claimA := a, claimB := b })

theorem witness_ArbiterServesLowerSlot (a b : Option Standing) :
    ∃ v, (selfClaims a b).view? 8 = some v ∧ v.other = .self .s2 ⟨300, 1000⟩ ∧ v.state = .opened ∧ v.slot ≠ .s2 ∧ v.claimA = a ∧
      v.claimB = b := ⟨_, rfl, rfl, rfl, nofun, rfl, rfl⟩

/-- A view of pair 4 that waits behind RL, for the one entry of the SLIDE's job. -/
def waitingFor4 : State :=
  (m60.setJob .s0 (jobWith [⟨4, .claimed⟩])).updView 4 (fun v => { v with state := .queued, waitTimer := some 8000 })

theorem witness_WaitExpiryFailsClaim :
    ∃ v, waitingFor4.view? 4 = some v ∧ v.waitTimer.isSome = true ∧ waitingFor4.station = .run ∧ v.peerRole.isSome = true ∧
      v.state = .queued ∧ v.inFlight = none ∧ waitingFor4.bus.busOff = none ∧ waitingFor4.role = some .m60 ∧
      (waitingFor4.job v.slot).active = true ∧ (waitingFor4.job v.slot).origin ≠ .learn ∧
      (waitingFor4.job v.slot).entries = [⟨4, .claimed⟩] ∧ (waitingFor4.job v.slot).firstFailure = none ∧
      waitingFor4.clu.waiting = [] ∧ waitingFor4.bus.general.length < 5 ∧ waitingFor4.amon.activityDue = false :=
  ⟨_, rfl, by decide, by decide, by decide, by decide, by decide, by decide, by decide, by decide, by decide, by decide, by decide,
    by decide, by decide, by decide⟩

/-- R51 and R52: the CEDE of the withdrawal has identifier 4 × 128 + 2 × 16 = 544. -/
theorem test_wait_expiry_cedes :
    (after (exec (.waitTimerExpiry 4 120) waitingFor4)).map (fun t => t.bus.general.map (fun f => f.ident.toNat)) = some [544] := by
  decide

/-! ### The peer monitor -/

/-- RL's record in a state, with a window and last sequence 4. -/
def hearing (st : Presence) (w : List Heard) : State :=
  m60.updPeer .rl (fun p => { p with state := st, window := w, lastSeq := 4, expectancy := some 30 })

/-- A STATUS of RL with a sequence. -/
def statusRl (seq : Nat) : Frame := encode 4 (.status { m60.statusContent with seq := seq })

theorem witness_StatusUpdatesRecord (st : Presence) :
    TakesFrame (withRx (hearing st [.hit, .hit, .hit, .hit, .miss]) (statusRl 6) false) kStatus false (statusRl 6) [] ∧
      (∃ c, payload (statusRl 6) = .status c) ∧ roleOf (statusRl 6).sender = some .rl ∧
      ∃ p, (withRx (hearing st [.hit, .hit, .hit, .hit, .miss]) (statusRl 6) false).peer? .rl = some p ∧ p.state = st ∧
        p.window.length = 5 :=
  ⟨takes .m60 ⟨.inr rfl, rfl, by decide, rfl, by decide⟩, ⟨_, rfl⟩, by decide, _, rfl, rfl, rfl⟩

/-- The worked sequence of 4.4: at 61 ms the sequence jumps from 4 to 6, the window is H H M M H, and the record is LOST. -/
theorem test_jump_loses_peer :
    (after (exec (.statusTaken 120)
        (withRx (hearing .present [.hit, .hit, .hit, .hit, .miss]) (statusRl 6) false))).map
      (fun t => (t.peer? .rl).map (fun p => (p.state, p.window, p.lastSeq, p.expectancy)))
      = some (some (.lost, [.hit, .hit, .miss, .miss, .hit], 6, none)) := by decide

/-- M60 with the SLIDE at a count, pair 4 in a state with its counter, and RL's record with a hold set, its axes all at one position
and the forced mark. -/
def comparing (count : Nat) (st : ViewState) (n : Nat) (holds : BitVec 24) (at_ : Nat) (forced : Bool) : State :=
  ((m60.updPeer .rl (fun p => { p with state := .present, holdSet := holds, intervals := .all ⟨at_, at_⟩, forced := forced })).updView
    4 (fun v => { v with state := st, reconcile := n })).setDrive .s0 (axisAt 3200 count)

theorem witness_compare (count : Nat) (st : ViewState) (n : Nat) (holds : BitVec 24) (at_ : Nat) (forced : Bool) :
    let s := comparing count st n holds at_ forced
    (∃ v q, s.view? 4 = some v ∧ v.peerRole = some .rl ∧ s.peer? .rl = some q ∧ v.state = st ∧ v.reconcile = n ∧ q.forced = forced ∧
      q.holdSet = holds) ∧ s.station = .run ∧ (16#24).getLsbD 4 = true ∧ (0#24).getLsbD 4 = false :=
  ⟨⟨_, _, rfl, rfl, rfl, rfl, rfl, rfl, rfl⟩, rfl, by decide, by decide⟩
theorem witness_compare_intervals :
    [comparing 2880 .own 1 16 1000 false, comparing 2880 .own 1 16 0 false, comparing 2400 .ownWait 0 16 1000 true].map
        (fun s => (s.view? 4).map (fun v => (s.ownInside v, s.peerInside v)))
      = [some (true, true), some (true, false), some (false, true)] := by decide
theorem witness_compare_job (st : ViewState) (e : EntryStatus) :
    let s := (comparing 2400 st 1 16 0 false).setJob .s0 (jobWith [⟨4, e⟩])
    ∃ v, s.view? 4 = some v ∧ v.state = st ∧ (s.job v.slot).active = true ∧ (s.job v.slot).entryOf 4 = some e :=
  ⟨_, rfl, rfl, rfl, rfl⟩
theorem witness_compare_needed :
    let s := (comparing 2400 .own 1 16 0 false).setJob .s0 (jobWith [⟨4, .held⟩])
    ∃ v, s.view? 4 = some v ∧ s.ownInside v = false ∧ s.needed v v.slot = true := ⟨_, rfl, by decide, by decide⟩

/-- R80's table at the second mismatch: CONFLICT and the own passage kept with the SLIDE inside, the passage given up outside, and a
passage the peer no longer shows as held is free. -/
theorem test_reconcile :
    [comparing 2880 .own 1 16 1000 false, comparing 2880 .own 1 16 0 false, comparing 2400 .own 1 16 0 false,
        comparing 2400 .queued 1 0 0 false].map (fun s => ((s.compare 4).1.view? 4).map (·.state))
      = [some .conflict, some .own, some .peer, some .opened] := by decide

theorem witness_ExpectancyExpiry (x : Heard) :
    let s := hearing .present [.hit, .hit, .hit, .hit, .hit]
    (∃ p, s.peer? .rl = some p ∧ p.expectancy.isSome = true ∧ p.state = .present ∧ p.window.length = 5) ∧ s.station = .run ∧
      s.PeersSound ∧ (hearing .acquiring []).PeersSound ∧
      (∃ p, (hearing .acquiring []).peer? .rl = some p ∧ p.expectancy.isSome = true ∧ p.state = .acquiring) ∧
      (([.hit, .miss, .hit, .hit, .hit] : List Heard).drop 1 ++ [Heard.miss]).count Heard.miss = 2 ∧
      (([x, .hit, .hit, .hit, .hit] : List Heard).drop 1 ++ [Heard.miss]).count Heard.miss = 1 := by
  have sound (s : State) (h : ∀ p ∈ s.pmon.peers, p.window.length ≤ Config.windowSize ∧
      (p.state = .present → misses p.window < 2) ∧ p.missesMeCount ≤ 1 ∧ (p.origin = .absent ∨ p.origin = .lost) ∧
      (p.state = .absent ∨ p.state = .lost → p.expectancy = none)) : s.PeersSound := h
  exact ⟨⟨_, rfl, rfl, rfl, rfl⟩, rfl, sound _ (by decide), sound _ (by decide), ⟨_, rfl, rfl, rfl⟩, by decide,
    (by decide : ([.hit, .hit, .hit, .hit, .miss] : List Heard).count .miss = 1)⟩
theorem witness_loss (st : ViewState) :
    let s := viewed (hearing .present [.hit, .miss, .hit, .hit, .hit]) 4 st
    (∃ p, s.peer? .rl = some p ∧ p.expectancy.isSome = true ∧ p.state = .present) ∧ s.station = .run ∧
      ∃ v, s.view? 4 = some v ∧ v.peerRole = some .rl ∧ v.state = st :=
  ⟨⟨_, rfl, rfl, rfl⟩, rfl, _, rfl, rfl, rfl⟩
theorem witness_lose_claims (st : ViewState) (e : EntryStatus) :
    let s := (viewed m60 4 st).setJob .s0 (jobWith [⟨4, e⟩])
    ∃ v, s.view? 4 = some v ∧ v.peerRole.isSome = true ∧ v.slot = .s0 ∧ v.state = st ∧ (s.job .s0).active = true ∧
      (s.job .s0).entryOf v.pair = some e := ⟨_, rfl, rfl, rfl, rfl, rfl, rfl⟩

/-- R71: at RL's second miss the passage that M60 holds stays OWN and forgets its waiter, and a waiting one is BARRED. -/
theorem test_loss_bars :
    [ViewState.ownWait, .queued].map (fun st =>
        ((after (exec (.expectancyTimerExpiry .rl 120) (viewed (hearing .present [.hit, .miss, .hit, .hit, .hit]) 4 st))).bind
          (fun t => t.view? 4)).map (·.state)) = [some .own, some .barred] := by decide

/-- RL back with pair 4 BARRED, the SLIDE at 900 permille, and whether RL shows the pair held. -/
def returning (holds : BitVec 24) : State :=
  { comparing 2880 .barred 0 holds 0 false with
    clu := { (comparing 2880 .barred 0 holds 0 false).clu with
      envelopes := .tabulate (fun sl => (comparing 2880 .barred 0 holds 0 false).nextEnvelope sl) } }

theorem witness_return :
    (returning 0).isPresent .rl = true ∧ ((returning 0).clu.views.map (·.pair)).Nodup ∧
      (∀ sl : Slot, (returning 0).clu.envelopes.get sl = (returning 0).nextEnvelope sl) ∧
      ∃ v, (returning 0).view? 4 = some v ∧ v.peerRole = some .rl ∧ v.state = .barred ∧ (returning 0).peerHolds v = false ∧
        (returning 0).ownInside v = true ∧ (returning 16).peerHolds v = true :=
  ⟨by decide, by decide, by intro sl; cases sl <;> decide, _, rfl, by decide, by decide, by decide, by decide, by decide⟩

/-- The same sequence at 50 ms: an expiry records the miss H H H H M and restarts the timer. -/
theorem test_expiry_records_miss :
    (after (exec (.expectancyTimerExpiry .rl 120) (hearing .present [.hit, .hit, .hit, .hit, .hit]))).map
      (fun t => (t.peer? .rl).map (fun p => (p.state, p.window, p.expectancy)))
      = some (some (.present, [.hit, .hit, .hit, .hit, .miss], some 30)) := by decide

theorem witness_MissesMeTurnsAtTwo (n : Nat) (flag : Bool) :
    let s := (hearing .present []).updPeer .rl (fun p => { p with missSet := 0b000100#6, missesMeCount := n, missesMe := flag })
    s.role = some .m60 ∧ ∃ p, s.peer? .rl = some p ∧ p.state = .present ∧ p.missSet.getLsbD (roleCode .m60) = true ∧
      p.missesMe = flag ∧ p.missesMeCount = n := ⟨rfl, _, rfl, rfl, (by decide : (4#6).getLsbD 2 = true), rfl, rfl⟩

/-- M60 UNHEARD by RL, with pair 4 in a state and the SLIDE's job with one entry. -/
def unheardBy (st : ViewState) (e : EntryStatus) : State :=
  ((viewed m60 4 st).updPeer .rl (fun p => { p with state := .present, missesMe := true })).setJob .s0 (jobWith [⟨4, e⟩])

theorem witness_unheard (st : ViewState) (e : EntryStatus) :
    (∃ v, (unheardBy st e).view? 4 = some v ∧ v.peerRole.isSome = true ∧ v.state = st ∧ v.slot = .s0 ∧ v.inFlight = none ∧
      v.cedeDue = false) ∧ (unheardBy st e).unheard = true ∧ ((unheardBy st e).clu.views.map (·.pair)).Nodup ∧
      ((unheardBy st e).job .s0).active = true ∧ ((unheardBy st e).job .s0).entryOf 4 = some e :=
  ⟨⟨_, rfl, rfl, rfl, rfl, rfl, rfl⟩, rfl, (by decide : (m60.clu.views.map (·.pair)).Nodup), rfl, rfl⟩

/-- M60 with a STAKE of pair 4 due, the pair in a state and the SLIDE at a count. -/
def stakeOwed (st : ViewState) (count : Nat) (sent : Option PassageKind) : State :=
  (m60.setDrive .s0 (axisAt 3200 count)).updView 4 (fun v => { v with state := st, stakeDue := true, inFlight := sent })

theorem witness_serve_stake (st : ViewState) (sent : Option PassageKind) :
    (∃ v, (stakeOwed st 2880 sent).view? 4 = some v ∧ v.stakeDue = true ∧ v.state = st ∧ v.inFlight = sent) ∧
      (stakeOwed st 2880 sent).role = some .m60 ∧ (stakeOwed st 2880 sent).station = .run ∧
      (stakeOwed st 2880 sent).bus.busOff = none ∧
      (∃ v, (stakeOwed .opened 2880 none).view? 4 = some v ∧ (stakeOwed .opened 2880 none).ownInside v = true) ∧
      ∃ v, (stakeOwed .opened 2400 none).view? 4 = some v ∧ (stakeOwed .opened 2400 none).ownInside v = false :=
  ⟨⟨_, rfl, rfl, rfl, rfl⟩, rfl, rfl, rfl, ⟨_, rfl, by decide⟩, _, rfl, by decide⟩

/-- R76: the STAKE due is sent (identifier 288) while the SLIDE is inside, and dropped once it has left. -/
theorem test_serve_stake :
    [stakeOwed .opened 2880 none, stakeOwed .opened 2400 none].map (fun s =>
        ((s.serveStake 4).1.bus.general.map (fun f => f.ident.toNat), ((s.serveStake 4).1.view? 4).map (·.stakeDue)))
      = [([288], some false), ([], some false)] := by decide

/-- A VEHICLE of the gateway: STILL with park. -/
def vehicle : Frame := encode 7 (.vehicle (some .still) true)

theorem witness_VehicleLoadsGateway :
    TakesFrame (withRx m60 vehicle false) kVehicle false vehicle [] ∧ payload vehicle = .vehicle (some .still) true ∧
      vehicle.sender = 7 := ⟨takes .m60 (by decide), by decide, by decide⟩

theorem witness_VehicleOfStation :
    TakesFrame (withRx m60 (ofRl (.vehicle (some .still) true)) false) kVehicle false (ofRl (.vehicle (some .still) true)) [] ∧
      (ofRl (.vehicle (some .still) true)).sender ≠ 7 := ⟨takes .m60 (by decide), by decide⟩

/-- R84's table: a VEHICLE of an undefined class makes the record MOVING and unknown. -/
theorem test_undefined_class :
    (after (exec (.vehicleTaken 120) (withRx m60 ⟨1136#11, [3, 1, 0, 0, 0, 0, 0, 0]⟩ false))).map (·.pmon.gateway)
      = some { speed := .moving, park := false, known := false, hold := none } := by decide

theorem slideDriving_drives : slideDriving.AllDrive := by
  intro sl
  cases sl
  · exact ⟨fun _ => ⟨rfl, rfl, rfl, rfl, rfl, rfl, rfl, rfl, rfl, fun r h => by cases h; decide⟩, by decide⟩
  · exact ⟨fun h => absurd h (by decide), by decide⟩
  · exact ⟨fun h => absurd h (by decide), by decide⟩

theorem witness_HoldExpiryDegradesGateway :
    slideDriving.pmon.gateway.hold.isSome = true ∧ slideDriving.station = .run ∧ slideDriving.Parked ∧ slideDriving.AllDrive ∧
      (slideDriving.job .s0).active = true ∧ slideDriving.kindAt .s0 = some .slide ∧ (slideDriving.job .s0).origin ≠ .jog :=
  ⟨rfl, rfl, ⟨rfl, rfl, rfl⟩, slideDriving_drives, rfl, rfl, by decide⟩
theorem witness_VehicleEndsQueued (o : QueuedOrigin) :
    let s := { m60 with mvc := { m60.mvc with queued := ⟨some ⟨o, none⟩, none, none⟩ } }
    s.kindAt .s0 = some .slide ∧ s.queuedAt .s0 = some ⟨o, none⟩ := ⟨rfl, rfl⟩

/-- R126: the scene's drive goes off at once and will end VEHICLE. -/
theorem test_vehicle_ends :
    (after (exec (.holdTimerExpiry 120) slideDriving)).map (fun t => ((t.drive .s0).axis, (t.drive .s0).afterBrake))
      = some (.braking, .ended .vehicle) := by decide

/-- A RESULT under this station's own role that is no echo. -/
theorem witness_RoleClash (n : Nat) (w : Timer) :
    let s := withRx { m60 with pmon := { m60.pmon with clashWindow := w } } (own (.cede 4)) false
    (Instr.peerCede n, kCede) ∈ takenKinds n ∧ s.station = .run ∧ s.role = some .m60 ∧ s.bus.rx = [⟨own (.cede 4), false⟩] ∧
      (own (.cede 4)).kind = kCede ∧ (own (.cede 4)).sender = roleCode .m60 ∧ s.pmon.clashWindow = w :=
  ⟨by simp [takenKinds], rfl, rfl, rfl, by decide, by decide, rfl⟩

/-- R77: two clashes inside the window bring STANDSTILL. -/
theorem test_second_clash_stops :
    (after (exec .resultTaken
      (withRx { m60 with pmon := { m60.pmon with clashWindow := some 1000, clashFlag := true } }
        ⟨identOf kResult 2, List.replicate 8 0⟩ false))).map (fun t => (t.station, t.pmon.statusTimer)) = some (.standstill, none) := by
  decide

theorem witness_clash_window :
    let s := { m60 with pmon := { m60.pmon with clashWindow := some 1000, clashFlag := true } }
    s.pmon.clashWindow.isSome = true ∧ s.station = .run := by decide

/-! ### The move controller -/

/-- SCENE 0 (SEATING) to all stations, from the gateway. -/
def scene0 : Frame := encode 7 (.scene 0 0b111111#6)

/-- M60 close by the targets of SEATING: SLIDE 1500 of 3200, BACK 700 of 2400, TIP 200 of 900. -/
def nearSeating : State := { m60 with adu := ⟨axisAt 3200 1500, axisAt 2400 700, axisAt 900 200⟩ }

theorem witness_SceneStartsMoves :
    let s := withRx nearSeating scene0 false
    TakesFrame s kScene false scene0 [] ∧ s.station = .run ∧ s.role = some .m60 ∧ payload scene0 = .scene 0 0b111111#6 ∧
      scene0.sender ≠ 6 ∧ s.pmon.gateway = inPark ∧ s.smon.level = .ok ∧ s.isOccupied = false ∧ s.mvc.active = none ∧
      (∀ sl : Slot, (s.job sl).active = false ∧ s.queuedAt sl = none) ∧
      (∀ (sl : Slot) (k : Kind) (p : Nat), kindOf .m60 sl = some k → sceneTarget 0 .m60 k = some p →
        ((s.drive sl).hasRange = true ∧ (s.drive sl).disabled = false) ∧
        ∀ v ∈ s.pairsOf sl, ∀ b, v.bandFor sl = some b →
          crosses (s.drive sl).count (sceneCount k p (s.drive sl).span) (s.drive sl).span b = false) ∧
      ∃ (sl : Slot) (k : Kind) (p : Nat), kindOf .m60 sl = some k ∧ sceneTarget 0 .m60 k = some p := by
  refine ⟨takes .m60 (by decide), rfl, rfl, by decide, by decide, rfl, rfl, rfl, rfl, ?_, ?_, .s0, .slide, 500, rfl, rfl⟩
  · intro sl; cases sl <;> exact ⟨rfl, rfl⟩
  · have h0 : ∀ v ∈ (withRx nearSeating scene0 false).pairsOf .s0, ∀ b ∈ (v.bandFor .s0).toList,
        crosses 1500 1600 3200 b = false := by decide
    have h1 : ∀ v ∈ (withRx nearSeating scene0 false).pairsOf .s1, ∀ b ∈ (v.bandFor .s1).toList,
        crosses 700 600 2400 b = false := by decide
    have h2 : ∀ v ∈ (withRx nearSeating scene0 false).pairsOf .s2, ∀ b ∈ (v.bandFor .s2).toList,
        crosses 200 6 900 b = false := by decide
    intro sl k p hk hp
    cases sl <;> cases hk <;> cases hp
    · exact ⟨by decide, fun v hv b hb => h0 v hv b (by simp [hb])⟩
    · exact ⟨by decide, fun v hv b hb => h1 v hv b (by simp [hb])⟩
    · exact ⟨by decide, fun v hv b hb => h2 v hv b (by simp [hb])⟩

/-- The station's own SCENE 1, which asks its SLIDE for 100 permille and its TIP for 1000, and both UNREFERENCED. -/
def scene1 : Frame := own (.scene 1 0b000100#6)
def unreferenced : State :=
  (m60.setDrive .s0 { axisAt 3200 2400 with referenced := false }).setDrive .s2 { axisAt 900 6 with referenced := false }

/-- A REFERENCE run. -/
def referenceRun : Run :=
  { origin := .reference, dir := .down, target := none, speed := .creep, secondLeg := false, pulsesLeft := none }

theorem witness_SceneEchoOnUnreferenced :
    let s := withRx unreferenced scene1 true
    TakesFrame s kScene true scene1 [] ∧ s.station = .run ∧ s.role = some .m60 ∧ payload scene1 = .scene 1 0b000100#6 ∧
      (0b000100#6).getLsbD (roleCode .m60) = true ∧ scene1.sender ≠ 6 ∧ s.pmon.gateway = inPark ∧ s.smon.level = .ok ∧
      s.isOccupied = false ∧ s.mvc.active = none ∧ (∀ sl : Slot, (s.job sl).active = false ∧ s.queuedAt sl = none) ∧
      sceneTarget 1 .m60 .slide = some 100 ∧ sceneTarget 1 .m60 .back = none ∧ sceneTarget 1 .m60 .tip = some 1000 ∧
      ((s.drive .s0).disabled = false ∧ (s.drive .s0).hasRange = false) ∧
      (s.drive .s2).disabled = false ∧ (s.drive .s2).hasRange = false :=
  ⟨takes .m60 (by decide), rfl, rfl, by decide, by decide, by decide, rfl, rfl, rfl, rfl,
    by intro sl; cases sl <;> exact ⟨rfl, rfl⟩, rfl, rfl, rfl, ⟨rfl, rfl⟩, rfl, rfl⟩

/-- R119: the UNREFERENCED SLIDE is given a REFERENCE run, down. -/
theorem test_reference_started :
    (after (exec (.sceneTaken 120) (withRx unreferenced scene1 true))).map
        (fun t => ((t.job .s0).present, (t.drive .s0).handed, t.sceneField)) = some (.reference, some referenceRun, 1) := by decide

/-- Scene 1 of M60 active: its SLIDE drives, its BACK waits to start, its TIP is done. -/
def superseding : State :=
  { slideDriving with
    mvc := { slideDriving.mvc with
      jobs := slideDriving.mvc.jobs.set .s0 { jobWith [] with member := .active }
      queued := ⟨none, some ⟨.scene 1 250 600 false, none⟩, none⟩
      active := some { id := .scene 1, requester := 7, slots := ⟨.pending, .pending, .ended .done⟩, learnSlot := none } } }

theorem witness_supersede :
    (∃ e, superseding.mvc.active = some e ∧ e.slots.get .s0 = .pending) ∧
      (∃ q, superseding.queuedAt .s1 = some q ∧ ∀ d, q.origin ≠ .jog d) ∧ superseding.queuedAt .s0 = none ∧
      (superseding.job .s0).active = true ∧ (superseding.job .s0).member = .active :=
  ⟨⟨_, rfl, rfl⟩, ⟨_, rfl, nofun⟩, rfl, rfl, rfl⟩

/-- R116: the SLIDE is still pending, the BACK is SUPERSEDED at once, and no scene is active. -/
theorem test_supersede :
    superseding.supersede.1.mvc.active = none ∧
      superseding.supersede.1.mvc.ending.map (·.slots) = [⟨.pending, .ended .superseded, .ended .done⟩] := by decide

/-- M60 with its seat occupied, a jog of its TIP not yet taken by the ADU. -/
def joggingTip : State :=
  { m60 with liu := { m60.liu with occupancy := { stable := true, samples := [] } } }.setJob .s2
    { jobWith [] with origin := .jog, standing := .jog, handed := false }

theorem witness_slot_refused :
    let d := m60.setDrive .s2 { axisAt 900 6 with disabled := true }
    (joggingTip.isOccupied = true ∧ (params .tip).seated < 1000) ∧ d.isOccupied = false ∧ (d.drive .s2).disabled = true ∧
      kindOf .m60 .s2 = some .tip ∧ sceneTarget 1 .m60 .tip = some 1000 ∧ sceneTarget 1 .m60 .back = none := by decide

/-- R116 and R118: scene 1 asks the TIP for 1000, above the 50 of an occupied seat; the slot is refused and the jog ends SUPERSEDED. -/
theorem test_refused_slot_ends_jog :
    (let t := settle (joggingTip.loadSlot .s2 1); ((t.job .s2).active, (t.job .s2).outcome)) = (false, some .superseded) := by decide

/-- R32: SEATING asks the SLIDE for 500 permille of 3200, that is 1600, and the TIP, at 0, for its margin 6. -/
theorem test_scene_targets :
    (after (exec (.sceneTaken 120) (withRx nearSeating scene0 false))).map
        (fun t => ((t.job .s0).requested, (t.job .s1).requested, (t.job .s2).requested, t.sceneField))
      = some (some 1600, some 600, some 6, 0) := by decide

theorem witness_SceneGateRefuses :
    let s := withRx { m60 with pmon := { m60.pmon with gateway := Gateway.initial } } scene0 false
    TakesFrame s kScene false scene0 [] ∧ s.station = .run ∧ s.role = some .m60 ∧ payload scene0 = .scene 0 0b111111#6 ∧
      (0b111111#6).getLsbD (roleCode .m60) = true ∧ scene0.sender ≠ 6 ∧ s.mvc.active = none ∧ s.bus.busOff = none ∧
      s.clu.waiting = [] ∧ s.mvc.outgoing = [] ∧ s.bus.general.length < 5 ∧ s.pmon.gateway.speed ≠ .still :=
  ⟨takes .m60 (by decide), rfl, rfl, by decide, by decide, by decide, rfl, rfl, rfl, rfl, by decide, by decide⟩

theorem witness_SceneGateSupply :
    let s := withRx { m60 with smon := { m60.smon with level := .critical } } scene0 false
    TakesFrame s kScene false scene0 [] ∧ s.pmon.gateway = inPark ∧ s.smon.level = .critical :=
  ⟨takes .m60 (by decide), rfl, rfl⟩

/-- R132: the RESULT of a scene that the vehicle gate refuses: id 0, requester 7, VEHICLE (11) three times, no decline reason. -/
theorem test_gate_result :
    (after (exec (.sceneTaken 120)
        (withRx { m60 with pmon := { m60.pmon with gateway := Gateway.initial } } scene0 false))).map
      (fun t => t.bus.general.map (fun f => f.data.map BitVec.toNat)) = some [[0, 7, 11, 11, 11, 255, 255, 255]] := by decide

/-- A STOP for M60 alone. -/
def stopM60 : Frame := encode 7 (.stop 0b000100#6)

theorem witness_StopEndsDrivingJobs :
    let s := withRx slideDriving stopM60 false
    TakesFrame s kStop false stopM60 [] ∧ s.station = .run ∧ s.role = some .m60 ∧ payload stopM60 = .stop 0b000100#6 ∧
      (0b000100#6).getLsbD (roleCode .m60) = true ∧ stopM60.sender ≠ 6 ∧
      ∀ sl : Slot, s.queuedAt sl = none ∧
        ((s.job sl).active = true →
          (s.job sl).cause = none ∧ (s.job sl).handed = true ∧ (s.drive sl).handed = none ∧ s.rcs.writing.get sl = none ∧
            (s.drive sl).axis = .driving) := by
  refine ⟨takes .m60 (by decide), rfl, rfl, by decide, by decide, by decide, ?_⟩
  intro sl
  cases sl <;> decide

/-- R92: the stopped SLIDE brakes, with duty 0, the brake on and 50 ms to run, and ends STOP after them. -/
theorem test_stop_brakes :
    (after (exec (.stopTaken 120) (withRx slideDriving stopM60 false))).map
        (fun t => ((t.drive .s0).axis, (t.drive .s0).duty, (t.drive .s0).brakeTimer, (t.drive .s0).afterBrake))
      = some (.braking, 0, some 50, .ended .stop) := by decide

/-- M60's SLIDE with a job, its axis in a state, and a run handed to it or waiting on it. -/
def ending (j : Job) (st : AxisState) (handed waits : Option Run) (a : AfterBrake) : State :=
  (m60.setJob .s0 j).setDrive .s0 { axisAt 3200 2400 with axis := st, handed := handed, waitingRun := waits, afterBrake := a }

theorem witness_endRequest (st : AxisState) (h w : Option Run) (a : AfterBrake) (c : Option JobOutcome) (given : Bool) :
    let s := ending { jobWith [] with cause := c, handed := given } st h w a
    s.rcs.writing.get .s0 = none ∧ (s.job .s0).active = true ∧ (s.job .s0).cause = c ∧ (s.drive .s0).handed = h ∧
      (s.job .s0).handed = given ∧ (s.drive .s0).axis = st ∧ (s.drive .s0).waitingRun = w ∧ (s.drive .s0).afterBrake = a :=
  ⟨rfl, rfl, rfl, rfl, rfl, rfl, rfl, rfl⟩
theorem witness_runEnded (x : Int) (c : Option JobOutcome) (f : Option Failure) (es : List Entry) :
    let s := ending { jobWith es with requested := some x, cause := c, firstFailure := f } .idle none none .idle
    s.kindAt .s0 = some .slide ∧ (s.job .s0).active = true ∧ (s.job .s0).requested = some x ∧ (s.job .s0).cause = c ∧
      (s.job .s0).firstFailure = f ∧ (s.job .s0).entries = es ∧ ∃ v ∈ s.pairsOf .s0, v.pair = 4 :=
  ⟨rfl, rfl, rfl, rfl, rfl, rfl, _, .tail _ (.head _), rfl⟩

/-- R114: 6 counts from the target the outcome is DONE, 7 counts from it BLOCKED_LIMIT, or the first failure. -/
theorem test_outcomes :
    [(2406, none), (2407, none), (2407, some Failure.wait)].map (fun x =>
        ((ending { jobWith [] with requested := some x.1, firstFailure := x.2 } .idle none none .idle).runEnded .s0
          (.outcome .blockedLimit)).2)
      = [[.finishJob .s0 .done], [.finishJob .s0 .blockedLimit], [.finishJob .s0 .wait]] := by decide

/-- M60 at the end of a YIELD job for pair 4 with its SLIDE still inside, a claim waiting, and whether that claim is the one the yield
was for. -/
def yielded (asked : Bool) : State :=
  (yielding 2880 .scene asked).setJob .s0 { jobWith [⟨4, .held⟩] with origin := .yield 4, standing := .yield }

theorem witness_chain (asked : Bool) :
    let s := yielded asked
    (s.job .s0).active = true ∧ (s.job .s0).origin = .yield 4 ∧
      (∃ v, s.view? 4 = some v ∧ v.peerRole.isSome = true ∧ v.slot = .s0 ∧ v.state = .ownWait ∧ s.ownInside v = true ∧
        v.inFlight = none) ∧ s.station = .run ∧ s.bus.busOff = none ∧ s.role = some .m60 :=
  ⟨rfl, rfl, ⟨_, rfl, rfl, rfl, rfl, by cases asked <;> decide, rfl⟩, rfl, rfl, rfl⟩

/-- R55, R57 and R128: either claim is declined CHAIN. -/
theorem test_chain :
    [false, true].map (fun asked =>
        (settle ((yielded asked).finishJob .s0 .blockedLimit)).bus.general.map (fun f => (f.ident.toNat, f.byte 0, f.byte 1)))
      = [[(672, 4, 6)], [(672, 4, 6)]] := by decide

/-- A LEARN of M60's SLIDE, with both its passages held. -/
def learnSlide : Frame := encode 7 (.learn 2 0)
def holding04 : State := viewed (viewed m60 0 .own) 4 .own

theorem witness_LearnStartsWhenHeld :
    let s := withRx holding04 learnSlide false
    TakesFrame s kLearn false learnSlide [] ∧ s.station = .run ∧ s.role = some .m60 ∧ learnSlide.sender = 7 ∧
      payload learnSlide = .learn (roleCode .m60) (slotIndex .s0) ∧ (kindOf .m60 .s0).isSome = true ∧ s.pmon.gateway = inPark ∧
      s.isOccupied = false ∧ s.smon.level = .ok ∧ s.mvc.active = none ∧ (s.job .s0).active = false ∧ s.queuedAt .s0 = none ∧
      (s.pairsOf .s0).length ≤ 10 ∧
      ∀ v ∈ s.pairsOf .s0, s.view? v.pair = some v ∧ v.gives .s0 = true ∧ v.inFlight = none ∧ v.cedeDue = false :=
  ⟨takes .m60 (by decide), rfl, rfl, by decide, by decide, rfl, rfl, rfl, rfl, rfl, rfl, rfl, by decide, by decide⟩

/-- R130: with both passages held the LEARN run is handed at once. -/
theorem test_learn_handed :
    (after (exec (.learnTaken 120) (withRx holding04 learnSlide false))).map
        (fun t => ((t.drive .s0).handed.map (·.origin), (t.job .s0).entries.map (·.status)))
      = some (some .learn, [.held, .held]) := by decide

/-- M60 out of park, occupied, or in CRITICAL, with the LEARN at the head of its queue. -/
def learnOutOfPark : State := withRx { m60 with pmon := { m60.pmon with gateway := Gateway.initial } } learnSlide false
def learnOccupied : State := withRx { m60 with liu := { m60.liu with occupancy := ⟨true, [true, true]⟩ } } learnSlide false
def learnCritical : State := withRx { m60 with smon := { m60.smon with level := .critical } } learnSlide false

theorem witness_learn_gates :
    ∀ s ∈ [learnOutOfPark, learnOccupied, learnCritical],
      ((s.station = .sync ∨ s.station = .run) ∧ s.bus.rx = [⟨learnSlide, false⟩] ∧ learnSlide.kind = kLearn ∧ s.role = some .m60 ∧
        learnSlide.sender ≠ roleCode .m60) ∧
      s.station = .run ∧ s.bus.busOff = none ∧ s.clu.waiting = [] ∧ s.mvc.outgoing = [] ∧ s.bus.general.length < 5 ∧
      (¬s.Parked ∨ s.isOccupied = true ∨ s.smon.level = .critical) := by decide

/-- R132: the RESULTs of the three: id 14, requester 7, VEHICLE (11), OCCUPIED (12) or SUPPLY (13) in slot 0 and NO_JOB in the others. -/
theorem test_learn_gates :
    [learnOutOfPark, learnOccupied, learnCritical].map (fun s =>
        (after (exec (.learnTaken 120) s)).map (fun t => t.bus.general.map (fun f => f.data.map BitVec.toNat)))
      = [some [[14, 7, 11, 18, 18, 255, 255, 255]], some [[14, 7, 12, 18, 18, 255, 255, 255]],
          some [[14, 7, 13, 18, 18, 255, 255, 255]]] := by decide

theorem witness_FramesPassedOver :
    TakesFrame (withRx m60 ⟨identOf kResult 4, List.replicate 8 0⟩ false) kResult false ⟨identOf kResult 4, List.replicate 8 0⟩ [] ∧
      m60.amon.activityDue = false ∧
      (let s := withRx { m60 with station := .standstill } (ofRl (.cede 4)) false
       (Instr.peerCede 120, kCede) ∈ takenKinds 120 ∧ s.station = .standstill ∧ s.bus.rx = [⟨ofRl (.cede 4), false⟩] ∧
         (ofRl (.cede 4)).kind = kCede) :=
  ⟨takes .m60 (by decide), rfl, by simp [takenKinds], rfl, rfl, by decide⟩

/-! ### The seat bus interface -/

/-- A frame of STATUS of RL, and the frames next to it that the filter drops: kinds 0 and 11, sender 6, an identifier with a low bit
set, a length one short, and a frame that is not a CAN FD data frame. -/
def onBus (ident : BitVec 11) (len : Nat) : BusFrame := ⟨true, ident, List.replicate len 0⟩

theorem test_filter_edges :
    [onBus 1216#11 24, onBus 192#11 8, onBus 64#11 8, onBus 1472#11 8, onBus 1248#11 24, onBus 1217#11 24, onBus 1216#11 23,
        onBus 1344#11 9, ⟨false, 1216#11, List.replicate 24 0⟩].map passesFilter
      = [true, true, false, false, false, false, false, false, false] := by decide

theorem witness_FilterDrops :
    (onBus 64#11 8).ident.toNat / 128 = 0 ∧ 11 ≤ (onBus 1472#11 8).ident.toNat / 128 ∧
      (onBus 1248#11 24).ident.toNat / 16 % 8 = 6 ∧ (onBus 1217#11 24).ident.toNat % 16 ≠ 0 ∧
      (onBus 1216#11 23).data.length ≠ 24 ∧ (onBus 1344#11 9).data.length ≠ 8 ∧
      (m60.station = .run ∧ m60.bus.busOff = none ∧ m60.bus.attempt = none ∧ m60.bus.rx.length < 8) := by decide

/-- M60 with a number of frames in its receive queue. -/
def rxOf (n : Nat) : State := m60.setBus { m60.bus with rx := List.replicate n ⟨ofRl (.cede 4), false⟩ }

theorem witness_FrameEntersQueue :
    (let f := onBus 1216#11 24
     1 ≤ f.ident.toNat / 128 ∧ f.ident.toNat / 128 ≤ 10 ∧ f.ident.toNat / 16 % 8 ≠ 6 ∧ f.ident.toNat % 16 = 0 ∧
       f.data.length = 24 ∧ f.fdData11 = true) ∧
    ((rxOf 7).station = .run ∧ (rxOf 7).bus.busOff = none ∧ (rxOf 7).bus.attempt = none ∧ (rxOf 7).bus.rx.length < 8) ∧
    8 ≤ (rxOf 8).bus.rx.length ∧ { rxOf 8 with station := .standstill }.station = .standstill ∧
    (State.reset.station = .held ∧ State.reset.bus.attempt = none) ∧
    (m60.setBus { m60.bus with busOff := some 200 }).bus.busOff.isSome = true := by decide

/-- R150: a frame lost to a full queue marks every peer record. -/
theorem test_overrun_forces :
    (after (exec (.frameReceived (onBus 1216#11 24)) (rxOf 8))).map
      (fun t => (t.bus.rx.length, t.pmon.peers.map (·.forced))) = some (8, [true, true, true, true, true]) := by decide

/-- M60 with frames in its general slots and a STATUS in the STATUS slot. -/
def sending (n : Nat) : State :=
  (rxOf n).setBus { (rxOf n).bus with general := [own (.cede 4), own (.claim 0 (some .jog)), own (.claim 4 (some .jog))]
                                      status := some (encode 2 (.status m60.statusContent)) }

theorem witness_AttemptOffersLowest :
    ((sending 7).station = .run ∧ (sending 7).bus.busOff = none ∧ (sending 7).bus.attempt = none ∧ (sending 7).bus.rx.length ≤ 7 ∧
      (sending 7).bus.general ++ (sending 7).bus.status.toList ≠ []) ∧
    8 ≤ (sending 8).bus.rx.length ∧ m60.bus.general ++ m60.bus.status.toList = [] ∧ State.reset.station ≠ .sync ∧
    State.reset.station ≠ .run := by decide

/-- R151: among the two CLAIMs the one placed first is offered. -/
theorem test_attempt_first_of_equals :
    (after (exec .transmissionAttempt (sending 7))).map (·.bus.attempt) = some (some (own (.claim 0 (some .jog)))) := by decide

/-- M60 in an attempt of a frame with an error count. -/
def attempting (f : Frame) (errors : Nat) : State :=
  (sending 0).setBus { (sending 0).bus with attempt := some f, errors := errors, statusBeside := some (statusRl 3) }

theorem witness_AttemptFails :
    (attempting (own (.cede 4)) 247).bus.attempt = some (own (.cede 4)) ∧ 247 + 8 ≤ 255 ∧ 255 < 248 + 8 ∧
      (attempting (own (.cede 4)) 248).bus.errors = 248 := by decide

/-- R156: from 127 a missing acknowledgement counts, from 128 it does not; 247 goes to 255 and 248 into bus-off for 200 ms. -/
theorem test_error_counts :
    [(true, 127), (true, 128), (false, 247), (false, 248)].map (fun x =>
        (after (exec (.attemptError x.1) (attempting (own (.cede 4)) x.2))).map (fun t => (t.bus.errors, t.bus.busOff)))
      = [some (135, none), some (128, none), some (255, none), some (256, some 200)] := by decide

/-- R154: a STATUS that waited beside replaces the one whose attempt has lost arbitration. -/
theorem test_lost_status_replaced :
    (after (exec .arbitrationLost (attempting (statusRl 2) 0))).map (fun t => (t.bus.status, t.bus.statusBeside))
      = some (some (statusRl 3), none) := by decide

theorem witness_CompletedFrameEchoes : (attempting (own (.cede 4)) 0).bus.attempt = some (own (.cede 4)) := by decide

theorem test_completed_frame :
    (after (exec .frameCompleted (attempting (own (.cede 4)) 1))).map (fun t => (t.bus.rx, t.bus.errors, t.bus.general.length))
      = some ([⟨own (.cede 4), true⟩], 0, 2) := by decide

theorem witness_RejoinAfterBusOff :
    let s := m60.setBus { m60.bus with busOff := some 200, errors := 256 }
    s.bus.busOff.isSome = true ∧ s.station = .run := by decide

/-- M60 in bus-off, with the job of its SLIDE crossing pair 4 before pair 0, and some claims due. -/
def inBusOff (due : List Due) : State :=
  let s := (m60.setJob .s0 (jobWith [⟨4, .needed⟩, ⟨0, .needed⟩])).setBus { m60.bus with busOff := some 200, errors := 256 }
  { s with clu := { s.clu with due := due } }

theorem witness_claims_due (due : List Due) :
    let s := inBusOff due
    s.bus.busOff.isSome = true ∧ s.station = .run ∧ s.role = some .m60 ∧ s.unheard = false ∧ s.clu.due = due ∧
      (∃ va vb, s.view? 4 = some va ∧ s.view? 0 = some vb ∧
        ∀ v ∈ [va, vb], v.slot = .s0 ∧ v.peerRole.isSome = true ∧ v.state = .opened ∧ v.inFlight = none ∧ v.cedeDue = false) ∧
      (s.job .s0).active = true ∧ (s.job .s0).entries = [⟨4, .needed⟩, ⟨0, .needed⟩] ∧ (s.drive .s0).axis ≠ .holding ∧
      (∀ y, y ≠ .s0 → (s.job y).entries = []) ∧ (s.job .s0).entryOf 4 = some .needed ∧ (⟨4, .claim, none⟩ : Due) ∉ ([] : List Due) :=
  ⟨rfl, rfl, rfl, rfl, rfl, ⟨_, _, rfl, rfl, by decide⟩, rfl, rfl, nofun,
    fun y hy => match y with
      | .s0 => absurd rfl hy
      | .s1 | .s2 => rfl, rfl, nofun⟩

/-- R48, R151 and R157: the two claims fall due in crossing order, and the rejoin sends that of pair 4 before that of pair 0. -/
theorem test_rejoin_order :
    let s := (((inBusOff []).decideEntry .s0 4).1.decideEntry .s0 0).1
    s.clu.due = [⟨4, .claim, none⟩, ⟨0, .claim, none⟩] ∧
      (after (exec (.busOffTimerExpiry 120) s)).map (fun t => (t.bus.general.map (fun f => (f.ident.toNat, f.byte 0)), t.clu.due))
        = some ([(416, 4), (416, 0)], []) := by decide

/-- R48 and R151 over two jobs in one bus-off: the claim of the job that has ended is due no longer, so that of the next job, which
crosses pair 0 first, goes first. -/
theorem test_rejoin_order_of_next_job :
    let s := (((inBusOff []).decideEntry .s0 4).1.finishJob .s0 .done).1
    let t := ((s.setJob .s0 (jobWith [⟨0, .needed⟩, ⟨4, .needed⟩])).decideEntry .s0 0).1
    s.clu.due = [] ∧
      (after (exec (.busOffTimerExpiry 120) (t.decideEntry .s0 4).1)).map (fun t => t.bus.general.map (fun f => (f.ident.toNat, f.byte 0)))
        = some [(416, 0), (416, 4)] := by decide

/-- R152 at a rejoin: the DECLINE of a yield evaluation (identifier 672) takes a slot before the RESULTs of the outgoing list. -/
theorem test_rejoin_decline_first :
    let s := (yielding 2880 .jog false).setBus { m60.bus with busOff := some 200 }
    (after (exec (.busOffTimerExpiry 120)
        { s with mvc := { s.mvc with outgoing := List.replicate 4 ⟨identOf kResult 2, List.replicate 8 0⟩ } })).map
      (fun t => t.bus.general.map (·.ident.toNat)) = some [672, 1312, 1312, 1312, 1312] := by decide

/-- R111: with four frames in the list and one slot free, the oldest goes to the slot and none is dropped; with no slot free the
oldest is dropped. -/
theorem test_outgoing_list :
    let list := [0, 1, 2, 3].map (fun n => (⟨identOf kResult 2, List.replicate 8 n⟩ : Frame))
    let s (n : Nat) : State := { m60 with
      mvc := { m60.mvc with outgoing := list }, bus := { m60.bus with general := List.replicate n (own (.cede 4)) } }
    let new : Frame := ⟨identOf kResult 2, List.replicate 8 9⟩
    (((s 4).placeOutgoing new).bus.general.drop 4 ++ ((s 4).placeOutgoing new).mvc.outgoing = list ++ [new]) ∧
      ((s 5).placeOutgoing new).mvc.outgoing = list.drop 1 ++ [new] := by decide

/-- M60 with CEDEs of pair 4 waiting with the CLU and a RESULT at the head of the outgoing list. -/
def listed (waiting : List Frame) : State :=
  { m60 with
    clu := { m60.clu with due := waiting.map (fun f => ⟨4, .cede, some f⟩) }
    mvc := { m60.mvc with outgoing := [⟨identOf kResult 2, List.replicate 8 0⟩] } }

theorem witness_FreeSlotAssigned (waiting : List Frame) :
    (listed waiting).station = .run ∧ (listed waiting).bus.busOff = none ∧ (listed waiting).bus.general.length < 5 ∧
      (listed waiting).clu.waiting ++ (listed waiting).mvc.outgoing.take 1 ≠ [] :=
  ⟨rfl, rfl, (by decide : 0 < 5), by simp [listed]⟩

/-- R152: the CEDE (kind 4) goes before the RESULT (kind 10), and a RESULT with nothing else waiting leaves the outgoing list. -/
theorem test_slot_assignment :
    (after (exec .generalSlotAssignment (listed [own (.cede 4)]))).map (fun t => (t.bus.general, t.clu.waiting))
        = some ([own (.cede 4)], []) ∧
      (after (exec .generalSlotAssignment (listed []))).map (fun t => t.mvc.outgoing) = some [] := by decide

/-- M60 with a CEDE due of pair 4 that fell due before the CEDE of pair 0 began to wait for a slot. -/
def cedeOwed : State :=
  { m60.updView 4 (fun v => { v with state := .queued, cedeDue := true }) with
    clu := { (m60.updView 4 (fun v => { v with state := .queued, cedeDue := true })).clu with
      due := [⟨4, .cede, none⟩, ⟨0, .cede, some (own (.cede 0))⟩] } }

theorem witness_cede_due :
    ∃ v, cedeOwed.view? 4 = some v ∧ cedeOwed.role = some .m60 ∧ cedeOwed.station = .run ∧ cedeOwed.bus.busOff = none ∧
      v.inFlight = none ∧ v.cedeDue = true ∧ cedeOwed.clu.due = [⟨4, .cede, none⟩, ⟨0, .cede, some (own (.cede 0))⟩] ∧
      (m60.updView 4 (fun v => { v with state := .queued, cedeDue := true })).clu.due = [] :=
  ⟨_, rfl, rfl, rfl, rfl, rfl, rfl, rfl, rfl⟩

/-- R38 and R152: handed at its echo, the CEDE of pair 4 takes the freed slot before the one that began to wait after it fell due. -/
theorem test_cede_due_keeps_rank :
    let s := (cedeOwed.serve 4).1
    s.clu.waiting = [own (.cede 4), own (.cede 0)] ∧
      (after (exec .generalSlotAssignment s)).map (fun t => (t.bus.general, t.clu.due))
        = some ([own (.cede 4)], [⟨0, .cede, some (own (.cede 0))⟩]) := by decide

/-- M60's SLIDE holding at 2620, the cut target of a job whose claim of pair 4 has failed, with the CEDE due behind the CLAIM's echo. -/
def cedeBehindEcho : State :=
  let u := m60.updView 4 (fun v => { v with state := .pending, inFlight := some .claim, cedeDue := true })
  let s := { u with clu := { u.clu with due := [⟨4, .cede, none⟩] } }
  withRx ((s.setDrive .s0 { axisAt 3200 2620 with axis := .holding, dir := .up, run := some (runTo .up 2620) }).setJob .s0
    { jobWith [⟨4, .failed .wait⟩] with target := some 2620, firstFailure := some .wait }) (own (.claim 4 (some .scene))) true

theorem witness_cede_behind_echo :
    TakesFrame cedeBehindEcho kClaim true (own (.claim 4 (some .scene))) [] ∧ cedeBehindEcho.role = some .m60 ∧
      cedeBehindEcho.station = .run ∧ cedeBehindEcho.bus.busOff = none ∧
      ∃ v, cedeBehindEcho.view? ((own (.claim 4 (some .scene))).byte 0) = some v ∧ v.peerRole.isSome = true ∧
        v.inFlight = some .claim ∧ v.cedeDue = true ∧ v.state = .pending :=
  ⟨takes .m60 (by decide), rfl, rfl, rfl, _, rfl, rfl, rfl, rfl, rfl⟩

/-- R38: the echo ends the job, whose end tests release; the CEDE due goes first, and is the only one. -/
theorem test_cede_due_first :
    (after (exec (.ownClaimEcho 120) cedeBehindEcho)).map
        (fun t => ((t.job .s0).outcome, (t.view? 4).map (fun v => (v.inFlight, v.cedeDue)),
          t.bus.general.map (fun f => f.ident.toNat)))
      = some (some .wait, some (some .cede, false), [544]) := by decide

theorem witness_StatusTimerBuildsStatus :
    m60.pmon.statusTimer.isSome = true ∧ m60.station = .run ∧ m60.role = some .m60 ∧ m60.bus.busOff = none ∧
      m60.bus.attempt = none ∧ ∀ p ∈ m60.pmon.peers, p.role ≠ .m60 := by decide

/-- R73 in RUN: FL, FR, M40 and RR, never heard, stand in the miss set; M60 itself does not. -/
theorem test_miss_set :
    (after (exec .statusTimerExpiry { inSync with station := .run, pmon := { inSync.pmon with statusTimer := some 20 } })).bind
      (fun t => t.bus.status.map (fun f => (f.byte 2, f.byte 0))) = some (0b101011, 3) := by decide

theorem witness_FrameRoundTrip :
    (Payload.stake 255).wf ∧ (Payload.claim 0 (some .scene)).wf ∧ (Payload.status m60.statusContent).wf :=
  ⟨(by decide : 255 < 256), ⟨by decide, rfl⟩,
    ⟨by decide, by decide, ⟨by decide, by decide, by decide⟩, ⟨by decide, by decide, by decide⟩, ⟨by decide, by decide, by decide⟩⟩⟩

theorem witness_UndefinedFieldsRead :
    (⟨400#11, [4, 4]⟩ : Frame).kind = kClaim ∧ (⟨656#11, [4, 7]⟩ : Frame).kind = kDecline ∧
      (⟨1136#11, [3, 1]⟩ : Frame).kind = kVehicle ∧ (statusRl 6).kind = kStatus := by decide

/-- R159: level 3 reads UNKNOWN, axis state 6 FAULT, an interval of 1001 to 1002 as [1000, 1000] and one of 5 to 4 as [0, 1000]. -/
theorem test_undefined_status_fields :
    (slotAt ⟨1184#11, [0, 96, 0, 0, 0, 0, 0, 0, 6, 233, 3, 234, 3, 1, 5, 0, 4, 0]⟩ 8).axis = .fault ∧
      (slotAt ⟨1184#11, [0, 96, 0, 0, 0, 0, 0, 0, 6, 233, 3, 234, 3, 1, 5, 0, 4, 0]⟩ 8).interval = ⟨1000, 1000⟩ ∧
      (slotAt ⟨1184#11, [0, 96, 0, 0, 0, 0, 0, 0, 6, 233, 3, 234, 3, 1, 5, 0, 4, 0]⟩ 13).interval = ⟨0, 1000⟩ ∧
      (match payload ⟨1184#11, [0, 96]⟩ with | .status c => c.level == .unknown | _ => false) = true := by decide

/-! ### The axis drive units -/

theorem m60_quiet : m60.ViewsQuiet := by refine ⟨by decide, ?_⟩; decide

/-- The SLIDE of M60 driving some run, alone. -/
def slideOn (d : Drive) : State :=
  { m60 with smon := { m60.smon with driveSet := ⟨true, false, false⟩, timer := some 10 } }.setDrive .s0 d

/-- A creep run of 20 counts down, as a relief. -/
def reliefDown : Run :=
  { origin := .relief, dir := .down, target := some 2380, speed := .creep, secondLeg := false, pulsesLeft := none }

theorem witness_SpeedLoopInterval :
    let s := slideOn (driving (axisAt 3200 2400) (runTo .up 2500) 2500)
    s.station = .run ∧ s.ViewsQuiet ∧ s.kindAt .s0 = some .slide ∧ (s.drive .s0).axis = .driving ∧
      (s.drive .s0).run = some (runTo .up 2500) ∧ (s.drive .s0).handed = none ∧ (runTo .up 2500).target = some 2500 ∧
      s.envelopeFor .s0 = .limits 388 2620 ∧
      (∀ y, y ≠ .s0 → (s.drive y).axis ≠ .driving ∧ (s.drive y).axis ≠ .holding ∧ (s.drive y).handed = none) ∧
      (2400 : Int) < min 2500 (2620 - 2 * (params .slide).coast) :=
  ⟨rfl, m60_quiet, rfl, rfl, rfl, rfl, rfl, by decide, by intro y; cases y <;> decide, by decide⟩

theorem witness_SpeedLoopCreep :
    let s := slideOn (driving (axisAt 3200 2400) reliefDown 2380)
    s.ViewsQuiet ∧ s.envelopeFor .s0 = .limits 388 2620 ∧ reliefDown.target = some 2380 ∧
      max 2380 (388 + 2 * (params .slide).coast) < (2400 : Int) := ⟨m60_quiet, by decide, rfl, by decide⟩

/-- The SLIDE in TRACK with LOCK, six pulses an interval and 4 counts short of the stop point that LOCK allows: the error is more
than a quarter of the setpoint, so the test clears LOCK, and the allowance of 12 puts the stop point behind the count. -/
def losingLock : State :=
  slideOn { driving (axisAt 3200 2610) (runTo .up 2700) 2614 with
    loop := .track, lock := true, close := 3, vset := 300, pulses := ⟨6, 6, 6, 6⟩ }

theorem witness_lock_cleared :
    losingLock.ViewsQuiet ∧ losingLock.envelopeFor .s0 = .limits 388 2620 ∧ (2610 : Int) < min 2700 (2620 - 6) ∧
      ¬(2610 : Int) < min 2700 (2620 - 2 * 6) ∧ (params .slide).coast = 6 ∧
      modeTest .track true 3 (setpoint .slide 2 4 300 false - 600) (setpoint .slide 2 4 300 false) = (.seek, false, 0) :=
  ⟨m60_quiet, by decide, by decide, by decide, by decide, by decide⟩
theorem witness_stop_reached :
    (slideOn (driving (axisAt 3200 2609) (runTo .up 2700) 2608)).envelopeFor .s0 = .limits 388 2620 ∧
      ¬(2609 : Int) < min 2700 (2620 - 2 * (params .slide).coast) := by decide

/-- R26 and R96: the drive goes off at that interval. -/
theorem test_lock_cleared_stops :
    (after (exec (.controlInterval 120) losingLock)).map (fun t => ((t.drive .s0).axis, (t.drive .s0).duty, (t.drive .s0).afterBrake))
      = some (.braking, 0, .retest) := by decide

/-- The settling case of 5.4, interval 1: from duty 300 and setpoint 50 the SLIDE at 2400 counts for the setpoint 100, its error is
100 at no pulses, and SEEK adds floor(100 × 1000 / (2 × 400)) = 125. -/
theorem test_speed_loop :
    (after (exec (.controlInterval 120) (slideOn (driving (axisAt 3200 2400) (runTo .up 2500) 2500)))).map
      (fun t => ((t.drive .s0).vset, (t.drive .s0).duty, (t.drive .s0).loop)) = some (100, 425, .seek) := by decide

/-- The SLIDE idle, with a run handed to it. -/
def slideHanded (r : Run) : State := m60.setDrive .s0 { axisAt 3200 2400 with handed := some r }

theorem witness_HandedRunIsDriven :
    let s := slideHanded (runTo .up 2500)
    s.station = .run ∧ s.ViewsQuiet ∧ s.kindAt .s0 = some .slide ∧ (s.drive .s0).axis = .idle ∧
      (s.drive .s0).handed = some (runTo .up 2500) ∧ s.rcs.writing.get .s0 = none ∧ (runTo .up 2500).origin ≠ .learn ∧
      (runTo .up 2500).target = some 2500 ∧ (2500 : Int) ≠ (s.drive .s0).count ∧ s.envelopeFor .s0 = .limits 388 2620 ∧
      (∀ y, y ≠ .s0 → (s.drive y).axis ≠ .driving ∧ (s.drive y).axis ≠ .holding ∧ (s.drive y).handed = none) ∧
      s.smon.driveSet = .all false ∧ s.smon.level = .ok ∧ (2400 : Int) < min 2500 (2620 - 2 * (params .slide).coast) :=
  ⟨rfl, m60_quiet, rfl, rfl, rfl, rfl, by decide, rfl, by decide, by decide, by intro y; cases y <;> decide, rfl, rfl, by decide⟩

/-- R89: duty 300, the brake released, and a job timer of 2000 + floor(100 × 1000 / 50) = 4000 ms. -/
theorem test_entry_into_driving :
    (after (exec (.controlInterval 110) (slideHanded (runTo .up 2500)))).map
      (fun t => ((t.drive .s0).axis, (t.drive .s0).duty, (t.drive .s0).brake, (t.drive .s0).jobTimer, t.smon.timer))
      = some (.driving, 300, false, some 4000, some 10) := by decide

theorem witness_reference_taken :
    let s := holding04.setDrive .s0 { axisAt 3200 2400 with handed := some referenceRun }
    s.kindAt .s0 = some .slide ∧ (s.drive .s0).axis = .idle ∧ referenceRun.origin = .reference ∧ referenceRun.target = none ∧
      referenceRun.pulsesLeft = none ∧ s.smon.level = .ok ∧ s.clu.envelopes.get .s0 = .limits 388 2620 ∧
      (∀ v ∈ s.pairsOf .s0, v.gives .s0 = true) ∧ ¬∀ v ∈ m60.pairsOf .s0, v.gives .s0 = true :=
  ⟨rfl, rfl, rfl, rfl, rfl, rfl, rfl, by decide, by decide⟩

/-- R105 and R34: down at creep, with 2000 + floor(8000 × 1000 / 50) = 162000 ms; HOLDING where a pair is not held (R119). -/
theorem test_reference_on_referenced :
    [holding04, viewed holding04 4 .opened].map (fun s =>
        let d := ((s.takeRun .s0 referenceRun).1).drive .s0
        (d.axis, d.duty, d.vset, d.jobTimer))
      = [(.driving, 300, 50, some 162000), (.holding, 0, 0, none)] := by decide

theorem witness_HallPulseCounts :
    m60.station ≠ .held ∧ (m60.kindAt .s0).isSome = true ∧ (m60.drive .s0).axis ≠ .driving ∧ (m60.drive .s0).axis ≠ .holding ∧
      (let d := driving (axisAt 3200 2499) (runTo .up 2500) 2500
       d.axis = .driving ∧ d.run = some (runTo .up 2500) ∧ (runTo .up 2500).origin ≠ .relief ∧
         (runTo .up 2500).pulsesLeft = none ∧ d.stop = some 2500 ∧ (2500 : Int) ≤ ((2499 + 1 : Nat) : Int)) := by decide

theorem witness_pulse_short_of_stop :
    let s := slideOn (driving (axisAt 3200 2400) (runTo .up 2500) 2500)
    (s.setDrive .s0 { s.drive .s0 with count := 2401 }).nextEnvelope .s0 = .limits 388 2620 ∧
      (2401 : Int) < min 2500 (2620 - 2 * (params .slide).coast) := by decide
theorem witness_last_relief_pulse :
    let r := { reliefDown with target := none, pulsesLeft := some 1 }
    let s := slideOn (driving (axisAt 3200 2400) r 2380)
    (s.drive .s0).axis = .driving ∧ (s.drive .s0).run = some r ∧ r.origin = .relief ∧ r.pulsesLeft = some 1 := by decide

/-- R88 and R99: a pulse restarts the stall timer and clears a held expiry. -/
theorem test_pulse_restarts_stall :
    (after (exec (.hallPulse .s0 120) (slideOn { driving (axisAt 3200 2400) (runTo .up 2500) 2500 with
      stallTimer := none, stallHeld := true }))).map (fun t => ((t.drive .s0).stallTimer, (t.drive .s0).stallHeld, (t.drive .s0).pulses.p0))
      = some (some 120, false, 1) := by decide

/-- R88 at both ends: a pulse down at 0 leaves 0, a pulse up at 8191 leaves 8191; R91: the pulse that reaches the stop point turns
the drive off. -/
theorem test_hall_pulse_ends :
    (after (exec (.hallPulse .s0 120) (m60.setDrive .s0 (axisAt 3200 0)))).map (fun t => (t.drive .s0).count) = some 0 ∧
      (after (exec (.hallPulse .s0 120) (m60.setDrive .s0 { axisAt 3200 8191 with dir := .up }))).map
        (fun t => (t.drive .s0).count) = some 8191 := by decide
theorem test_hall_pulse_at_stop :
    (after (exec (.hallPulse .s0 120) (slideOn (driving (axisAt 3200 2499) (runTo .up 2500) 2500)))).map
      (fun t => ((t.drive .s0).count, (t.drive .s0).axis, (t.drive .s0).duty)) = some (2500, .braking, 0) := by decide

/-- The SLIDE in its brake period after a run. -/
def slideBraking (a : AfterBrake) : State := slideOn ((driving (axisAt 3200 2400) (runTo .up 2500) 2500).braked a)

theorem witness_BrakePeriodEnds (o : JobOutcome) :
    ((slideBraking .idle).drive .s0).axis = .braking ∧ ((slideBraking .idle).drive .s0).brakeTimer.isSome = true ∧
      ((slideBraking .idle).drive .s0).waitingRun = none ∧ ((slideBraking .idle).drive .s0).afterBrake = .idle ∧
      ((slideBraking (.ended o)).drive .s0).afterBrake = .ended o ∧ ((slideBraking .idle).job .s0).active = false ∧
      (slideBraking .idle).amon.activityDue = false := ⟨rfl, rfl, rfl, rfl, rfl, rfl, rfl⟩

theorem witness_relief_after_brake :
    let s := slideBraking .relief
    s.kindAt .s0 = some .slide ∧ (s.drive .s0).axis = .braking ∧ (s.drive .s0).brakeTimer.isSome = true ∧
      (s.drive .s0).waitingRun = none ∧ (s.drive .s0).afterBrake = .relief ∧ (s.drive .s0).run = some (runTo .up 2500) ∧
      (s.drive .s0).hasRange = true ∧
      s.clu.envelopes.get .s0 = .limits 388 2620 ∧ s.smon.level = .ok ∧ s.smon.driveSet.get .s0 = true ∧
      s.amon.activityDue = false ∧ max ((2400 : Int) - 20) (388 + 2 * (params .slide).coast) < 2400 := by
  simp only [slideBraking]; decide

/-- R101: the relief of a run up goes 20 counts down, at creep from the entry duty, with a limit of 2000 + 20 × 1000 / 50 ms. -/
theorem test_relief_run :
    (after (exec (.brakeTimerExpiry .s0 120) (slideBraking .relief))).map
      (fun t => ((t.drive .s0).axis, (t.drive .s0).dir, (t.drive .s0).stop, (t.drive .s0).jobTimer))
      = some (.driving, .down, some 2380, some 2400) := by decide

/-- The SLIDE at the end of a brake period, with a run waiting. -/
def slideWaiting (a : AfterBrake) : State :=
  slideOn { (driving (axisAt 3200 2400) (runTo .down 2300) 2300).braked a with waitingRun := some (runTo .up 2500) }

theorem witness_waiting_run (a : AfterBrake) :
    let s := slideWaiting a
    s.kindAt .s0 = some .slide ∧ (s.drive .s0).axis = .braking ∧ (s.drive .s0).brakeTimer.isSome = true ∧
      (s.drive .s0).waitingRun = some (runTo .up 2500) ∧ (s.drive .s0).afterBrake = a ∧ (runTo .up 2500).origin ≠ .learn ∧
      (runTo .up 2500).target = some 2500 ∧ (2500 : Int) ≠ (s.drive .s0).count ∧ s.clu.envelopes.get .s0 = .limits 388 2620 ∧
      s.smon.level = .ok ∧ s.smon.driveSet.get .s0 = true ∧ s.amon.activityDue = false ∧
      (2400 : Int) < min 2500 (2620 - 2 * (params .slide).coast) :=
  ⟨rfl, rfl, rfl, rfl, rfl, by decide, rfl, (by decide : (2500 : Int) ≠ (2400 : Nat)), rfl, rfl, rfl, rfl, by decide⟩

/-- R90: the run that waited is driven, up, with a job timer of 2000 + floor(100 × 1000 / 50) = 4000 ms. -/
theorem test_waiting_run_taken :
    (after (exec (.brakeTimerExpiry .s0 120) (slideWaiting .idle))).map
      (fun t => ((t.drive .s0).axis, (t.drive .s0).dir, (t.drive .s0).jobTimer, (t.drive .s0).waitingRun))
      = some (.driving, .up, some 4000, none) := by decide

/-- The SLIDE braking after a drive down with no job left, with a job's run down handed to it, at a supply level. -/
def slideJoining (t : Int) (l : Level) : State :=
  let s := slideOn { (driving (axisAt 3200 2400) (runTo .down 2300) 2300).braked .idle with run := none, handed := some (runTo .down t) }
  ({ s with smon := { s.smon with level := l } }).setJob .s0 { jobWith [] with dir := .down }

theorem witness_joins_braking (t : Int) (l : Level) :
    let s := slideJoining t l
    (s.drive .s0).axis = .braking ∧ (s.drive .s0).brakeTimer.isSome = true ∧ (s.drive .s0).waitingRun = none ∧
      (runTo .down t).dir = (s.drive .s0).dir ∧ (runTo .down t).origin ≠ .learn ∧ s.smon.level = l ∧
      (slideJoining 2300 .critical).mayDrive .s0 (runTo .down 2300) false = true ∧
      (slideJoining 2400 .ok).mayDrive .s0 (runTo .down 2400) false = false :=
  ⟨rfl, rfl, rfl, rfl, nofun, rfl, by decide, by decide⟩

/-- R98 and R108: the job of a run that a CRITICAL supply keeps from driving ends at once, and the axis brakes on. -/
theorem test_supply_bars_joining :
    (after (exec (.controlInterval 80) (slideJoining 2300 .critical))).map
        (fun t => ((t.job .s0).outcome, (t.drive .s0).axis, (t.drive .s0).brakeTimer))
      = some (some .supply, .braking, some 50) := by decide

/-- R92 and R108: a STOP ends at once the job of a run that was taken in the brake period and has not driven. -/
theorem test_stop_of_joined_run :
    (after (exec (.controlInterval 120) (slideJoining 2400 .ok))).map
        (fun t => ((t.drive .s0).afterBrake, ((settle (t.endRequest .s0 .stop)).drive .s0).axis,
          ((settle (t.endRequest .s0 .stop)).job .s0).outcome))
      = some (.joined, .braking, some .stop) := by decide

/-- The SLIDE at the end of its REFERENCE run, in a scene that asks for 800 permille. -/
def referenceEnded : State :=
  (slideBraking .refDone).setJob .s0 { jobWith [] with permille := some 800, present := .reference }

theorem witness_scene_goes_on :
    let s := referenceEnded
    s.kindAt .s0 = some .slide ∧ (s.drive .s0).axis = .braking ∧ (s.drive .s0).brakeTimer.isSome = true ∧
      (s.drive .s0).waitingRun = none ∧ (s.drive .s0).afterBrake = .refDone ∧ (s.job .s0).active = true ∧
      (s.job .s0).origin = .scene 1 ∧ (s.job .s0).permille = some 800 ∧ s.amon.activityDue = false ∧
      ∀ v ∈ s.pairsOf .s0, ∀ b ∈ (v.bandFor .s0).toList,
        crosses (s.drive .s0).count (sceneCount .slide 800 (s.drive .s0).span) (s.drive .s0).span b = false := by
  simp only [referenceEnded, slideBraking]; decide

/-- R119 and R32: the scene's run to 2560 is handed. -/
theorem test_scene_goes_on :
    (after (exec (.brakeTimerExpiry .s0 120) referenceEnded)).map
      (fun t => ((t.drive .s0).axis, (t.drive .s0).handed, (t.job .s0).present))
      = some (.idle, some (runTo .up 2560), .main) := by decide

/-- A LEARN run on one leg, and a REFERENCE leg. -/
def leg (o : RunOrigin) (second : Bool) : Run :=
  { origin := o, dir := .down, target := none, speed := .creep, secondLeg := second, pulsesLeft := none }

/-- The SLIDE driving some run, with its blanking timer and a held stall as given. -/
def stalling (r : Run) (blanking : Timer) (held : Bool) : Drive :=
  { driving (axisAt 3200 2400) r 2500 with blankingTimer := blanking, stallHeld := held }

theorem witness_StallsAndBlanking (r : Run) (b : Timer) (held : Bool) :
    let s := slideOn (stalling r b held)
    (s.drive .s0).axis = .driving ∧ (s.drive .s0).run = some r ∧ s.amon.activityDue = false ∧
      (s.drive .s0).stallTimer.isSome = true ∧ (s.drive .s0).blankingTimer = b ∧ (s.drive .s0).stallHeld = held ∧
      (s.job .s0).active = false := ⟨rfl, rfl, rfl, rfl, rfl, rfl, rfl⟩

theorem witness_stall_cases (o : RunOrigin) (second : Bool) (c : Option JobOutcome) :
    let s := (slideOn { stalling (leg o second) none false with referenced := false }).setJob .s0 { jobWith [] with cause := c }
    (s.drive .s0).run = some (leg o second) ∧ (leg o second).origin = o ∧ (leg o second).secondLeg = second ∧
      (s.drive .s0).referenced = false ∧ (s.job .s0).active = true ∧ (s.job .s0).entries = [] ∧ s.queuedAt .s0 = none ∧
      s.ViewsQuiet ∧ (s.job .s0).cause = c := ⟨rfl, rfl, rfl, rfl, rfl, rfl, rfl, m60_quiet, rfl⟩

/-- R99, R105 and R106: the four ends of a stall. -/
def afterStall (r : Run) (b : Timer) : Option (AxisState × Nat × Bool × AfterBrake) :=
  (after (exec (.stallTimerExpiry .s0 120) (slideOn (stalling r b false)))).map
    (fun t => ((t.drive .s0).axis, (t.drive .s0).count, (t.drive .s0).stallHeld, (t.drive .s0).afterBrake))

theorem test_stall_held_in_blanking : afterStall (runTo .up 2500) (some 200) = some (.driving, 2400, true, .idle) := by decide
theorem test_stall_of_a_job : afterStall (runTo .up 2500) none = some (.braking, 2400, false, .relief) := by decide
theorem test_stall_of_learn_legs :
    afterStall (leg .learn true) none = some (.braking, 2400, false, .rawCount 2400) ∧
      afterStall (leg .learn false) none = some (.braking, 0, false, .secondLeg) := by decide
theorem test_stall_of_reference : afterStall (leg .reference false) none = some (.braking, 0, false, .refDone) := by decide

/-- R99: the stall held while blanking ran is taken when blanking ends. -/
theorem test_held_stall_taken :
    (after (exec (.blankingTimerExpiry .s0 120) (slideOn (stalling (runTo .up 2500) (some 200) true)))).map
      (fun t => (t.drive .s0).afterBrake) = some .relief := by decide

theorem witness_JobTimerEndsRun (r : Run) :
    let s := slideOn (driving (axisAt 3200 2400) r 2500)
    (s.drive .s0).axis = .driving ∧ (s.drive .s0).run = some r ∧ (s.drive .s0).jobTimer.isSome = true ∧ s.amon.activityDue = false :=
  ⟨rfl, rfl, rfl, rfl⟩
theorem witness_relief_timeout :
    let s := (slideOn (driving (axisAt 3200 2400) reliefDown 2380)).setJob .s0 (jobWith [])
    (s.job .s0).active = true ∧ (s.job .s0).entries = [] ∧ (s.job .s0).member = .noScene ∧ (s.job .s0).cause = none ∧
      s.queuedAt .s0 = none ∧ s.ViewsQuiet ∧ s.amon.activityDue = false :=
  ⟨rfl, rfl, rfl, rfl, rfl, m60_quiet, rfl⟩

/-- R103: a run that times out brakes and will end TIMEOUT. -/
theorem test_job_timeout :
    (after (exec (.jobTimerExpiry .s0 120) (slideOn (driving (axisAt 3200 2400) (runTo .up 2500) 2500)))).map
      (fun t => ((t.drive .s0).axis, (t.drive .s0).afterBrake)) = some (.braking, .ended .timeout) := by decide

/-- A calibration write of raw count 3100 in progress on the SLIDE at rest at the far end. -/
def calibrating (st : Station) : State :=
  { m60 with station := st, rcs := { m60.rcs with writing := ⟨some 3100, none, none⟩, writeTimer := ⟨some 25, none, none⟩ } }

theorem witness_CalibrationCompletes :
    (calibrating .standstill).rcs.writing.get .s0 = some 3100 ∧ (calibrating .standstill).station ≠ .run ∧
      (calibrating .standstill).amon.activityDue = false := ⟨rfl, by decide, rfl⟩

/-- The same write in RUN, at the end of the learn of the SLIDE, which holds pairs 0 and 4. -/
def learning (c : Option JobOutcome) : State :=
  let s := (viewed (viewed (calibrating .run) 0 .own) 4 .own).setJob .s0
    { jobWith [⟨0, .held⟩, ⟨4, .held⟩] with origin := .learn, member := .active, cause := c }
  { s with mvc := { s.mvc with
      active := some { id := .learn, requester := 7, learnSlot := some .s0, slots := ⟨.pending, .ended .noJob, .ended .noJob⟩ } } }

theorem witness_learn_completes (c : Option JobOutcome) :
    let s := learning c
    s.rcs.writing.get .s0 = some 3100 ∧ s.station = .run ∧ s.role = some .m60 ∧ (s.drive .s0).axis = .idle ∧
      s.queuedAt .s0 = none ∧ (s.job .s0).active = true ∧ (s.job .s0).origin = .learn ∧ (s.job .s0).member = .active ∧
      (s.job .s0).entries = [⟨0, .held⟩, ⟨4, .held⟩] ∧ (s.job .s0).cause = c ∧
      s.mvc.active = some { id := .learn, requester := 7, learnSlot := some .s0, slots := (PerSlot.all (.ended .noJob)).set .s0 .pending } ∧
      s.clu.views.length ≤ 10 ∧ (∀ v ∈ s.pairsOf .s0, v.gives .s0 = true ∧ v.state ≠ .ownWait ∧ v.waiting = none) ∧
      ∀ y, y ≠ .s0 → (s.job y).active = false ∧ (s.drive y).axis ≠ .driving ∧ (s.drive y).axis ≠ .holding :=
  ⟨rfl, rfl, rfl, rfl, rfl, rfl, rfl, rfl, rfl, rfl, rfl, (by decide : (learning none).clu.views.length ≤ 10),
    (by decide : ∀ v ∈ (learning none).pairsOf .s0, v.gives .s0 = true ∧ v.state ≠ .ownWait ∧ v.waiting = none),
    fun y hy => match y with
      | .s0 => absurd rfl hy
      | .s1 | .s2 => ⟨rfl, nofun, nofun⟩⟩

/-- The SLIDE at the end of the second leg of its learn, with a raw count. -/
def counted (raw : Nat) : State :=
  (learning none).setDrive .s0 ((driving (axisAt 3200 2400) (leg .learn true) 2500).braked (.rawCount raw))

theorem witness_raw_count (raw : Nat) :
    let s := counted raw
    s.station = .run ∧ s.role = some .m60 ∧ (s.drive .s0).axis = .braking ∧ (s.drive .s0).brakeTimer.isSome = true ∧
      (s.drive .s0).waitingRun = none ∧ (s.drive .s0).afterBrake = .rawCount raw ∧ s.amon.activityDue = false ∧
      s.queuedAt .s0 = none ∧ (s.job .s0).active = true ∧ (s.job .s0).origin = .learn ∧ (s.job .s0).member = .active ∧
      (s.job .s0).entries = [⟨0, .held⟩, ⟨4, .held⟩] ∧
      s.mvc.active = some { id := .learn, requester := 7, learnSlot := some .s0, slots := (PerSlot.all (.ended .noJob)).set .s0 .pending } ∧
      s.clu.views.length ≤ 10 ∧ (∀ v ∈ s.pairsOf .s0, v.gives .s0 = true ∧ v.state ≠ .ownWait ∧ v.waiting = none) ∧
      ∀ y, y ≠ .s0 → (s.job y).active = false ∧ (s.drive y).axis ≠ .driving ∧ (s.drive y).axis ≠ .holding :=
  ⟨rfl, rfl, rfl, rfl, rfl, rfl, rfl, rfl, rfl, rfl, rfl, rfl, rfl, (by decide : (learning none).clu.views.length ≤ 10),
    (by decide : ∀ v ∈ (learning none).pairsOf .s0, v.gives .s0 = true ∧ v.state ≠ .ownWait ∧ v.waiting = none),
    fun y hy => match y with
      | .s0 => absurd rfl hy
      | .s1 | .s2 => ⟨rfl, nofun, nofun⟩⟩

/-- R107 and R165: a raw count of 200 or 8000 begins a write of 25 ms, and one of 199 or 8001 disables the axis. -/
theorem test_raw_count :
    [200, 8000, 199, 8001].map (fun raw =>
        (after (exec (.brakeTimerExpiry .s0 120) (counted raw))).map
          (fun t => ((t.drive .s0).disabled, t.rcs.writing.s0 == some raw, (t.job .s0).outcome)))
      = [some (false, true, none), some (false, true, none), some (true, false, some .learnFail),
          some (true, false, some .learnFail)] := by decide

/-- The same write with the learn superseded by scene 1, which found the SLIDE UNREFERENCED. -/
def sceneInWrite : State := (learning (some .superseded)).setQueued .s0 (some ⟨.scene 1 100 320 true, none⟩)

theorem witness_scene_in_write (ref : Bool) :
    let s := m60.setQueued .s0 (some ⟨.scene 1 100 320 ref, none⟩)
    (s.kindAt .s0).isSome = true ∧ (s.job .s0).active = false ∧ s.queuedAt .s0 = some ⟨.scene 1 100 320 ref, none⟩ ∧
      (s.drive .s0).disabled = false ∧ (s.drive .s0).hasRange = true := ⟨rfl, rfl, rfl, rfl, rfl⟩

/-- R118 and R131: the scene's job starts when the write completes, with the REFERENCE run its loading has decided. -/
theorem test_scene_loaded_in_write :
    (after (exec (.calibrationWriteCompletion .s0 120) sceneInWrite)).map
        (fun t => ((t.drive .s0).referenced, (t.job .s0).origin, (t.job .s0).present, (t.drive .s0).handed))
      = some (true, .scene 1, .reference, some referenceRun) := by decide

/-- R131 and R132: the RESULT of the learn: id 14, requester 7, DONE in slot 0 and NO_JOB in the others. -/
theorem test_learn_result :
    (after (exec (.calibrationWriteCompletion .s0 120) (learning none))).map
      (fun t => (t.mvc.active, ((t.bus.general ++ t.mvc.outgoing).filter (fun f => f.kind == kResult)).map (·.data.map BitVec.toNat)))
      = some (none, [[14, 7, 0, 18, 18, 255, 255, 255]]) := by decide

/-- R107 and R165: the span, the record with its role and marker, and the two flags. -/
theorem test_calibration :
    (after (exec (.calibrationWriteCompletion .s0 120) (calibrating .run))).map
      (fun t => ((t.drive .s0).span, (t.drive .s0).referenced, t.rcs.calibration.s0))
      = some (3100, true, ⟨3100, some .m60, true⟩) := by decide

/-! ### Supply, activity and inputs -/

/-- M60 at a supply level with a recovery count. -/
def supplied (l : Level) (r : Nat) : State := { m60 with smon := { m60.smon with level := l, recovery := r } }

theorem witness_SampleSetsLevel (l : Level) (r : Nat) :
    (supplied l r).smon.timer.isSome = true ∧ (supplied l r).smon.level = l ∧ (supplied l r).smon.recovery = r := ⟨rfl, rfl, rfl⟩

theorem witness_RecoverySound : (supplied .critical 2).RecoverySound :=
  ⟨by decide, by decide⟩

/-- The level after a sample. -/
def sampled (l : Level) (r n : Nat) : Option (Level × Nat) :=
  (after (exec (.sampleTimerExpiry n) (supplied l r))).map (fun t => (t.smon.level, t.smon.recovery))

/-- R135 and R136 at their thresholds, in tenths of a volt. -/
theorem test_supply_falls :
    [sampled .ok 0 105, sampled .ok 0 104, sampled .ok 0 90, sampled .ok 0 89]
      = [some (.ok, 0), some (.low, 0), some (.low, 0), some (.critical, 0)] := by decide
theorem test_supply_rises :
    [sampled .low 0 109, sampled .low 0 110, sampled .critical 2 95, sampled .critical 2 110, sampled .critical 2 94,
        sampled .critical 1 95]
      = [some (.low, 0), some (.ok, 0), some (.low, 0), some (.ok, 0), some (.critical, 0), some (.critical, 2)] := by decide

theorem witness_CriticalStopsDrives :
    (slideOn (driving (axisAt 3200 2400) (runTo .up 2500) 2500)).smon.timer.isSome = true ∧
      (slideOn (driving (axisAt 3200 2400) (runTo .up 2500) 2500)).smon.level ≠ .critical ∧ 89 < 90 := by decide

theorem witness_drives_sound : m60.DrivesSound := by
  intro sl
  cases sl <;> refine ⟨⟨by decide, by decide, by decide⟩, ⟨by decide, by decide, by decide⟩, by intro; decide⟩

/-- R98: a driving SLIDE stops at a sample of 8.9 V. -/
theorem test_critical_stops :
    (after (exec (.sampleTimerExpiry 89) (slideOn (driving (axisAt 3200 2400) (runTo .up 2500) 2500)))).map
      (fun t => ((t.drive .s0).axis, (t.drive .s0).duty, (t.drive .s0).brake)) = some (.braking, 0, true) := by decide

/-- An occupied M60 whose BACK and TIP both hold at their seated limits, 450 and 50 permille: the BACK with pair 8 HELD-A and its claim of
pair 2 queued, the TIP waiting for pair 8. -/
def bothHolding : State :=
  let back : Drive := { axisAt 2400 1075 with axis := .holding, dir := .up, run := some { runTo .up 2392 with origin := .jog } }
  let tip : Drive := { axisAt 900 40 with axis := .holding, dir := .up, run := some { runTo .up 894 with origin := .jog } }
  let jog (t : Int) (es : List Entry) : Job :=
    { jobWith es with origin := .jog, standing := .jog, permille := none, requested := some t, target := some t }
  let s := (m60.setDrive .s1 back).setDrive .s2 tip
  let t := (s.setJob .s1 (jog 2392 [⟨8, .held⟩, ⟨2, .claimed⟩])).setJob .s2 (jog 894 [⟨8, .claimed⟩])
  { (viewed t 2 .queued).updView 8 (fun v =>
      { v with state := .heldA, waiting := some .b, waitTimer := some 8000, waiter := some .jog }) with
    liu := { t.liu with occupancy := { stable := true, samples := [] } } }

/-- R137: the end of the BACK's job gives pair 8 to the TIP, which has no claim left and stands at its limit; both jobs end SUPPLY, and
both axes are IDLE. -/
theorem test_critical_ends_both :
    (after (exec (.sampleTimerExpiry 80) bothHolding)).map
        (fun t => [Slot.s1, .s2].map (fun sl => ((t.job sl).active, (t.job sl).outcome, (t.drive sl).axis)))
      = some [(false, some .supply, .idle), (false, some .supply, .idle)] := by decide

theorem witness_endRequests :
    (bothHolding.job .s2).active = true ∧ (bothHolding.job .s2).cause = none ∧ bothHolding.rcs.writing.get .s2 = none ∧
      (bothHolding.drive .s2).handed = none ∧ (bothHolding.job .s2).handed = true ∧ (bothHolding.drive .s2).axis = .holding ∧
      Slot.s0 ∉ [Slot.s1, .s2] ∧ Slot.s2 ∈ [Slot.s1, .s2] := by decide

theorem witness_supplyCritical : superseding.queuedAt .s1 = some ⟨.scene 1 250 600 false, none⟩ := rfl

theorem witness_QuietTimerExpiry :
    m60.amon.quiet.isSome = true ∧ m60.amon.mode = .active ∧
      (¬∃ sl : Slot, (m60.drive sl).axis = .driving ∨ (m60.drive sl).axis = .braking ∨ (m60.drive sl).axis = .holding) ∧
      ∃ sl : Slot, ((slideBraking .idle).drive sl).axis = .driving ∨ ((slideBraking .idle).drive sl).axis = .braking ∨
        ((slideBraking .idle).drive sl).axis = .holding :=
  ⟨by decide, by decide, by rintro ⟨sl, h⟩; revert h; cases sl <;> decide, .s0, .inr (.inl rfl)⟩

theorem witness_quiet_ends :
    let s := withRx { m60 with amon := ⟨.quiet, none, false⟩ } (encode 7 (.stop 0b001000#6)) false
    TakesFrame s kStop false (encode 7 (.stop 0b001000#6)) [] ∧ s.role = some .m60 ∧
      payload (encode 7 (.stop 0b001000#6)) = .stop 0b001000#6 ∧ (0b001000#6).getLsbD (roleCode .m60) = false ∧
      s.amon.mode = .quiet ∧ s.bus.busOff = none ∧ s.bus.attempt = none :=
  ⟨takes .m60 (by decide), rfl, by decide, by decide, rfl, rfl, rfl⟩

/-- R143: a STOP for another station brings ACTIVE back, with a STATUS at once and 20 ms to the next. -/
theorem test_quiet_ends :
    (after (exec (.stopTaken 120) (withRx { m60 with amon := ⟨.quiet, none, false⟩ } (encode 7 (.stop 0b001000#6)) false))).map
      (fun t => (t.amon, t.bus.status.isSome, t.pmon.statusTimer)) = some (⟨.active, some 30000, false⟩, true, some 20) := by decide

/-- R141: at rest the quiet timer brings QUIET. -/
theorem test_quiet : (after (exec .quietTimerExpiry m60)).map (fun t => t.amon) = some ⟨.quiet, none, false⟩ := by decide

/-- The SLIDE's up switch low, twice sampled low before. -/
def pressingUp : State :=
  { m60 with liu := { m60.liu with up := ⟨⟨false, [true, true, false]⟩, .initial, .initial⟩ } }

/-- The TIP at 200 of 900, with its down switch low, twice sampled low before. -/
def pressingTipDown : State :=
  { m60.setDrive .s2 (axisAt 900 200) with liu := { m60.liu with down := ⟨.initial, .initial, ⟨false, [true, true, false]⟩⟩ } }

theorem witness_SwitchSampleDebounces :
    let s := pressingTipDown
    let l := s.liu.sampleSwitches { released with jdn2 := false }
    s.station = .run ∧ s.kindAt .s2 = some .tip ∧ s.mvc.jogs.get .s2 = .neutral ∧ l.jogOf .s2 = .down ∧
      (∀ y, y ≠ .s2 → l.jogOf y = s.mvc.jogs.get y) ∧ s.smon.level = .ok ∧ s.pmon.gateway.speed = .still ∧
      s.rcs.writing.get .s2 = none ∧ (s.drive .s2).hasRange = true ∧ (∀ y, (s.job y).active = false ∧ s.queuedAt y = none) ∧
      ∀ v ∈ s.pairsOf .s2, ∀ b ∈ (v.bandFor .s2).toList,
        crosses (s.drive .s2).count (min 200 (params .tip).margin) (s.drive .s2).span b = false :=
  ⟨rfl, rfl, rfl, by decide, by intro y; cases y <;> decide, rfl, rfl, rfl, by decide, by intro y; cases y <;> exact ⟨rfl, rfl⟩,
    by decide⟩

/-- R33 and R121: the TIP's jog down goes to its margin, 6. -/
theorem test_jog_starts :
    (after (exec (.switchSample { released with jdn2 := false } 120) pressingTipDown)).map
      (fun t => ((t.job .s2).origin, (t.job .s2).target, (t.drive .s2).handed.isSome)) = some (.jog, some 6, true) := by decide

/-- ONE low, twice sampled low before. -/
def pressingOne : State := { m60 with liu := { m60.liu with one := ⟨false, [true, true, false]⟩ } }

theorem witness_one_touch :
    pressingOne.station = .run ∧ pressingOne.role = some .m60 ∧ oneTouch .m60 = some (1, 0b000100#6) ∧
      pressingOne.liu.one.stable = false ∧ pressingOne.bus.busOff = none ∧ pressingOne.clu.waiting = [] ∧
      pressingOne.mvc.outgoing = [] ∧ pressingOne.bus.general.length < 5 := by decide

/-- R16: ONE on M60 sends SCENE 1 to M60 alone. -/
theorem test_one_touch :
    (after (exec (.switchSample { released with one := false } 120) pressingOne)).map (·.bus.general)
      = some [encode 2 (.scene 1 0b000100#6)] := by decide

theorem witness_jogRequest :
    m60.kindAt .s0 = some .slide ∧ m60.station = .run ∧ m60.smon.level = .ok ∧ m60.rcs.writing.get .s0 = none ∧
      (supplied .critical 0).smon.level = .critical ∧ (slideDriving.setJob .s0 { jobWith [] with member := .active }).job .s0 =
        { jobWith [] with member := .active } := ⟨rfl, rfl, rfl, rfl, rfl, rfl⟩
theorem witness_jog_released :
    let s := { m60 with mvc := { m60.mvc with
      jobs := m60.mvc.jobs.set .s0 { jobWith [] with origin := .jog }, jogs := ⟨.up, .neutral, .neutral⟩ } }
    s.mvc.jogs.get .s0 ≠ .neutral ∧ (s.job .s0).active = true ∧ (s.job .s0).origin = .jog := by decide

/-- R144 and R121: the third low sample debounces the switch and the jog state is UP; the second does not. -/
theorem test_switch_debounce :
    (after (exec (.switchSample { released with jup0 := false } 120) pressingUp)).map (fun t => t.mvc.jogs.s0) = some .up ∧
      (after (exec (.switchSample { released with jup0 := false } 120) m60)).map (fun t => t.mvc.jogs.s0) = some .neutral := by
  decide

/-- The BACK driving a scene job whose target of 900 permille lies outside its seated range. -/
def backDriving : State :=
  (({ m60 with smon := { m60.smon with driveSet := ⟨false, true, false⟩, timer := some 10 }
               liu := { m60.liu with occupancy := ⟨false, [true, false]⟩ } }.setJob .s1 (jobWith [])).setDrive .s1
    (driving (axisAt 2400 600) (runTo .up 700) 700))

theorem backDriving_drives : backDriving.AllDrive := by
  intro sl
  cases sl
  · exact ⟨fun h => absurd h (by decide), by decide⟩
  · exact ⟨fun _ => ⟨rfl, rfl, rfl, rfl, rfl, rfl, rfl, rfl, rfl, fun r h => by cases h; decide⟩, by decide⟩
  · exact ⟨fun h => absurd h (by decide), by decide⟩

theorem witness_OccupancySampleDebounces :
    m60.liu.occupancyTimer.isSome = true ∧ m60.amon.activityDue = false ∧ m60.liu.occupancy.stable = false ∧
      backDriving.AllDrive ∧ (backDriving.job .s1).active = true ∧ backDriving.kindAt .s1 = some .back ∧ Kind.back ≠ .slide ∧
      (backDriving.job .s1).origin.isScene = true ∧ (backDriving.job .s1).permille = some 900 ∧ (params .back).seated < 900 :=
  ⟨rfl, rfl, rfl, backDriving_drives, rfl, rfl, by decide, rfl, rfl, by decide⟩

/-- R125: the BACK goes off as the seat becomes occupied, to end OCCUPIED. -/
theorem test_occupied_ends :
    (after (exec (.occupancySample ⟨true, false⟩ 120) backDriving)).map
      (fun t => ((t.drive .s1).axis, (t.drive .s1).afterBrake)) = some (.braking, .ended .occupied) := by decide

/-- R145: the second sample with the buckle low makes the seat occupied. -/
theorem test_occupancy :
    (after (exec (.occupancySample ⟨true, false⟩ 120)
        { m60 with liu := { m60.liu with occupancy := ⟨false, [true, false]⟩ } })).map (fun t => t.liu.occupancy)
      = some ⟨true, [true, true]⟩ := by decide

/-! ### Position arithmetic and the invariants -/

/-- A count below its margin, a band at each side, and the seated limit below the count, each at once in reach of the hypotheses. -/
theorem witness_RangeKeepsCountAndBands :
    (0 : Int) < 3200 ∧ (0 : Int) ≤ 0 ∧ (staticInterval 2400 3200).high < 820 ∧ (120 : Int) < (staticInterval 2400 3200).low ∧
      (820 : Nat) ≤ 1000 ∧ (0 : Nat) ≤ 120 ∧ Kind.back ≠ .slide := by decide

theorem witness_SetpointAndYieldBounds :
    yieldTarget .slide ⟨820, 1000⟩ 2880 3200 = some 2560 ∧ exitSide ⟨820, 1000⟩ (norm 2880 3200) = .downward ∧
      yieldTarget .slide ⟨0, 120⟩ 320 3200 = some 448 ∧ exitSide ⟨0, 120⟩ (norm 320 3200) = .upward := by decide

/-- M60 at rest, with a supply sample in front of its queue, meets the hypotheses of the invariants' statements. -/
def sampling : State := { m60 with pending := [.quietTimerExpiry], rcs :=
  { m60.rcs with retained := ⟨⟨2400, true⟩, ⟨600, true⟩, ⟨6, true⟩⟩ } }

theorem witness_invariants :
    sampling.DrivesSound ∧ sampling.SupplyHolds ∧ sampling.RecoverySound ∧ sampling.EnvelopesSound ∧ sampling.BusBounded ∧
      sampling.PeersSound ∧ sampling.StoresSound ∧ ∃ t, step sampling = .next t := by
  refine ⟨witness_drives_sound, fun h => absurd h (by decide), ⟨by decide, by decide⟩, ?_, ⟨⟨by decide, by decide, by decide⟩, by decide⟩,
    ?_, ?_, _, rfl⟩
  · refine ⟨by decide, ?_⟩
    intro sl _
    cases sl <;> refine ⟨by decide, by decide, by decide, ?_⟩ <;> simp only [clearOf] <;> decide
  · intro p hp
    exact (by decide : ∀ p ∈ sampling.pmon.peers, p.window.length ≤ Config.windowSize ∧
      (p.state = .present → misses p.window < 2) ∧ p.missesMeCount ≤ 1 ∧ (p.origin = .absent ∨ p.origin = .lost) ∧
      (p.state = .absent ∨ p.state = .lost → p.expectancy = none)) p hp
  · intro sl; cases sl <;> exact ⟨fun _ => ⟨by decide, by decide⟩, by decide⟩

theorem witness_StepRunsFrontCommand : sampling.pending = .quietTimerExpiry :: [] ∧ m60.pending = [] := ⟨rfl, rfl⟩

/-- The queue is taken from its front. -/
theorem test_step_takes_front : (after (step sampling)).map (fun t => (t.pending, t.amon.mode)) = some ([], .quiet) := by decide

end Sys2Proof.Tests
end

section
/-! PROOFS. Rules about a step carried to its end that the statements of this family share: what every step leaves alone, and how an
invariant of the reports is carried through them. -/

namespace Sys2Proof.Machine

/-! ### A step carried to its end -/

theorem settle_around (e : Effect) : SameAround e.1 (settle e) := (settle_evolves (loose := True) e (.inl trivial)).around

/-- A step whose reports are local keeps the passages of the peer pairs. -/
theorem settle_passages {e : Effect} (h : AllLocal e.2) : SamePassages e.1 (settle e) :=
  (settle_evolves (loose := False) e (.inr h)).passages

/-- No activity event is left untaken at the end of a step (R140). -/
@[simp] theorem State.takeActivity_activityDue (s : State) : s.takeActivity.amon.activityDue = false := by
  unfold State.takeActivity
  cases h : s.amon.activityDue with
  | false => simpa using h
  | true =>
    cases s.amon.mode with
    | active => rfl
    | quiet => simp only [if_true]; split <;> rfl

@[simp] theorem settle_activityDue (e : Effect) : (settle e).amon.activityDue = false := State.takeActivity_activityDue _

/-! ### Reports taken one after another -/

/-- `k` reports carry `s` through the reports `rs`, and all that answers them, to `t`, and no yield evaluation comes of them. -/
def Takes (k : Nat) (rs : List Report) (s t : State) : Prop :=
  ∀ n rest late, cascade (n + k) (rs ++ rest) late s = cascade n rest late t

variable {s t u : State}

theorem Takes.nil (s : State) : Takes 0 [] s s := fun _ _ _ => rfl

/-- A report is taken, and then all that answers it. -/
theorem Takes.answer {k : Nat} {r : Report} (hr : r.isLate = false) (h : Takes k (handle r s).2 (handle r s).1 t) :
    Takes (k + 1) [r] s t := fun n rest late => by
  rw [← h n rest late, ← Nat.add_assoc]
  simp [cascade, hr]

/-- A report that finds nothing to do. -/
theorem Takes.skip {r : Report} (hr : r.isLate = false) (h : handle r s = (s, [])) : Takes 1 [r] s s :=
  .answer hr (by rw [h]; exact .nil s)

theorem Takes.append {j k : Nat} {a b : List Report} (h : Takes j a s t) (g : Takes k b t u) : Takes (k + j) (a ++ b) s u :=
  fun n rest late => by rw [← Nat.add_assoc, List.append_assoc, h, g]

/-- The end of a step whose reports are all taken. -/
theorem Takes.settle {k : Nat} {e : Effect} (h : Takes k e.2 e.1 t) (hk : k ≤ reportBound) : settle e = t.takeActivity := by
  have := h (reportBound - k) [] []
  rw [Nat.sub_add_cancel hk, List.append_nil, cascade_done] at this
  rw [Machine.settle, this]

/-- A property of states that every report of a step keeps, where each such report is answered by such reports alone. -/
theorem cascade_keeps {J : State → Prop} {R : Report → Prop}
    (h : ∀ r s, R r → J s → J (handle r s).1 ∧ ∀ x ∈ (handle r s).2, R x) (n : Nat) (rs late : List Report) (s : State)
    (hs : J s) (hr : ∀ x ∈ rs, R x) (hl : ∀ x ∈ late, R x) : J (cascade n rs late s) := by
  induction n generalizing rs late s with
  | zero => exact hs
  | succ n ih =>
    cases rs with
    | nil =>
      cases late with
      | nil => exact hs
      | cons l ls =>
        rw [List.forall_mem_cons] at hl
        obtain ⟨hJ, hR⟩ := h l s hl.1 hs
        exact ih _ _ _ hJ hR hl.2
    | cons r rs =>
      rw [List.forall_mem_cons] at hr
      unfold cascade
      split
      · exact ih _ _ _ hs hr.2 (fun x hx => (List.mem_append.mp hx).elim (hl x) (fun hx => by simp_all))
      · obtain ⟨hJ, hR⟩ := h r s hr.1 hs
        exact ih _ _ _ hJ (fun x hx => (List.mem_append.mp hx).elim (hR x) (hr.2 x)) hl

/-! ### Fields that a step's first part leaves alone -/

theorem SameAround.symm {s t : State} (h : SameAround s t) : SameAround t s :=
  ⟨h.role.symm, h.pending.symm, h.gateway.symm, h.clashWindow.symm, h.clashFlag.symm, h.rx.symm, h.attempt.symm, h.errors.symm,
    h.busOff.symm, h.marker.symm, h.recorded.symm, h.up.symm, h.down.symm, h.one.symm, h.occupancy.symm, h.jogs.symm,
    fun sl => (h.counts sl).symm⟩

theorem State.noteActivity_around (s : State) : SameAround s s.noteActivity := (Evolves.activity (loose := True) s).around

@[simp] theorem State.noteActivity_station (s : State) : s.noteActivity.station = s.station := by
  unfold State.noteActivity; split <;> rfl
@[simp] theorem State.noteActivity_pending (s : State) : s.noteActivity.pending = s.pending := s.noteActivity_around.pending
@[simp] theorem State.noteActivity_mvc (s : State) : s.noteActivity.mvc = s.mvc := by unfold State.noteActivity; split <;> rfl
@[simp] theorem State.noteActivity_pmon (s : State) : s.noteActivity.pmon = s.pmon := by unfold State.noteActivity; split <;> rfl
@[simp] theorem State.noteActivity_bus (s : State) : s.noteActivity.bus = s.bus := by unfold State.noteActivity; split <;> rfl
@[simp] theorem State.noteActivity_liu (s : State) : s.noteActivity.liu = s.liu := by unfold State.noteActivity; split <;> rfl
@[simp] theorem State.noteActivity_rcs (s : State) : s.noteActivity.rcs = s.rcs := by unfold State.noteActivity; split <;> rfl

end Sys2Proof.Machine
end

section
/-! PROOFS. Every command has a next state (O3), and the release of reset (O5, O6). -/

namespace Sys2Proof.Machine

@[simp] theorem State.assignSlot_amon (s : State) : s.assignSlot.amon = s.amon := by
  unfold State.assignSlot
  simp only
  repeat' split
  all_goals rfl

@[simp] theorem State.assignSlots_amon (n : Nat) (s : State) : (State.assignSlots n s).amon = s.amon := by
  induction n generalizing s with
  | zero => rfl
  | succ n ih => exact (ih s.assignSlot).trans s.assignSlot_amon

/-! ### A command completes -/

/-- What O3 asks of a command that is no release or assertion of reset. -/
def Completes (s : State) (o : Host.Outcome State Fault Refusal) : Prop :=
  ∃ t, o = .next t ∧ t.pending = s.pending ∧ t.role = s.role ∧ (s.amon.activityDue = false → t.amon.activityDue = false)

/-- An update that keeps the waiting commands and the role. -/
def SameQueue (s t : State) : Prop := t.pending = s.pending ∧ t.role = s.role

variable {s t u : State}

theorem SameQueue.refl (s : State) : SameQueue s s := ⟨rfl, rfl⟩

theorem SameQueue.trans (h : SameQueue s t) (k : SameQueue t u) : SameQueue s u := ⟨k.1.trans h.1, k.2.trans h.2⟩

theorem SameAround.sameQueue (h : SameAround s t) : SameQueue s t := ⟨h.pending, h.role⟩

/-- Any update of `Evolves` keeps the waiting commands and the role. -/
theorem Evolves.sameQueue (h : Evolves True s t) : SameQueue s t := h.around.sameQueue

theorem SameQueue.noteActivity (h : SameQueue s t) : SameQueue s t.noteActivity := h.trans t.noteActivity_around.sameQueue

/-- A command whose step is carried to its end, after a first part that keeps the waiting commands and the role. -/
theorem Completes.settled {e : Effect} (h : SameQueue s e.1) : Completes s (.next (settle e)) :=
  ⟨settle e, rfl, (settle_around e).pending.trans h.1, (settle_around e).role.trans h.2, fun _ => settle_activityDue e⟩

/-- A command without reports that leaves the waiting commands, the role and the AMON's pending event alone. -/
theorem Completes.direct (h : SameQueue s t) (ha : t.amon.activityDue = s.amon.activityDue) : Completes s (.next t) :=
  ⟨t, rfl, h.1, h.2, fun h => ha.trans h⟩

theorem Completes.stay (s : State) : Completes s (.next s) := .direct (.refl s) rfl

theorem State.clash_sameQueue (s : State) : SameQueue s s.clash := by
  unfold State.clash; split <;> exact ⟨rfl, rfl⟩

/-- The echo of an own passage frame keeps the waiting commands and the role, where its effect on the view does. -/
theorem State.takeEcho_sameQueue (s : State) (kind : Nat) (k : PassageKind) (act : State → View → Effect)
    (h : ∀ t v, SameQueue t (act t v).1) : SameQueue s (s.takeEcho kind k act).1 := by
  unfold State.takeEcho
  split
  · exact .refl s
  · rename_i f _
    have hn : SameQueue s s.popRx.noteActivity := SameQueue.noteActivity (s := s) (t := s.popRx) ⟨rfl, rfl⟩
    simp only
    split
    · split
      · exact hn
      · rename_i v _
        split
        · exact (hn.trans (h (s.popRx.noteActivity.updView v.pair (View.landed k)) (v.landed k))).trans
            (State.serveDue_evolves (loose := True) _ _).sameQueue
        · exact hn
    · exact ⟨rfl, rfl⟩

/-- A peer's passage frame keeps the waiting commands and the role, where its effect on the view does. -/
theorem State.takePeer_sameQueue (s : State) (kind : Nat) (act : State → View → Frame → Effect)
    (h : ∀ t v f, SameQueue t (act t v f).1) : SameQueue s (s.takePeer kind act).1 := by
  unfold State.takePeer
  split
  · exact .refl s
  · have hp : SameQueue s s.popRx := ⟨rfl, rfl⟩
    simp only
    split
    · split
      · exact (hp.trans s.popRx.clash_sameQueue).noteActivity
      · split
        · exact hp.noteActivity
        · split
          · exact hp.noteActivity.trans (h _ _ _)
          · exact hp.noteActivity
    · exact hp

/-- A frame taken whole keeps the waiting commands and the role, where its block does. -/
theorem State.take_sameQueue (s : State) (kind : Nat) (active : Bool) (act : State → Frame → Bool → Effect)
    (h : ∀ t f b, SameQueue t (act t f b).1) : SameQueue s (s.take kind active act).1 := by
  unfold State.take
  split
  · exact .refl s
  · have hp : SameQueue s s.popRx := ⟨rfl, rfl⟩
    simp only
    split
    · split
      · split
        · exact (hp.trans s.popRx.clash_sameQueue).noteActivity
        · exact hp.trans s.popRx.clash_sameQueue
      · refine SameQueue.trans ?_ (h _ _ _)
        split
        · exact hp.noteActivity
        · exact hp
    · exact hp

theorem State.viewTo_sameQueue (s : State) (p : Nat) (st : ViewState) : SameQueue s (s.viewTo p st).1 :=
  (State.viewTo_evolves (loose := True) s p st (.inl trivial)).sameQueue

theorem State.enterConflict_sameQueue (s : State) (p : Nat) : SameQueue s (s.enterConflict p).1 :=
  (State.enterConflict_evolves (loose := True) s p trivial).sameQueue

/-! The effects of the eight passage frames on the view of their pair. -/

theorem State.ownClaim_sameQueue (s : State) (v : View) : SameQueue s (s.ownClaim v).1 := by
  unfold State.ownClaim; split <;> first | exact s.viewTo_sameQueue _ _ | exact .refl s

theorem State.peerClaimed_sameQueue (s : State) (v : View) (st : Standing) : SameQueue s (s.peerClaimed v st).1 := by
  unfold State.peerClaimed
  split
  · exact s.viewTo_sameQueue _ _
  · exact s.viewTo_sameQueue _ _
  · exact (s.updView v.pair (fun w => { w with waiter := some st })).viewTo_sameQueue v.pair .ownWait
  all_goals exact .refl s

theorem State.ownCede_sameQueue (s : State) (v : View) : SameQueue s (s.ownCede v).1 := by
  unfold State.ownCede; split <;> first | exact s.viewTo_sameQueue _ _ | exact .refl s

theorem State.peerCeded_sameQueue (s : State) (v : View) : SameQueue s (s.peerCeded v).1 := by
  unfold State.peerCeded; split <;> first | exact s.viewTo_sameQueue _ _ | exact .refl s

theorem State.ownDecline_sameQueue (s : State) (v : View) : SameQueue s (s.ownDecline v).1 := by
  unfold State.ownDecline; split <;> first | exact s.viewTo_sameQueue _ _ | exact .refl s

theorem State.peerDeclined_sameQueue (s : State) (v : View) (r : Reason) : SameQueue s (s.peerDeclined v r).1 := by
  unfold State.peerDeclined; split <;> first | exact s.viewTo_sameQueue _ _ | exact .refl s

theorem State.ownStake_sameQueue (s : State) (v : View) : SameQueue s (s.ownStake v).1 := by
  unfold State.ownStake
  repeat' split
  all_goals first | exact s.viewTo_sameQueue _ _ | exact s.enterConflict_sameQueue _ | exact .refl s

theorem State.peerStaked_sameQueue (s : State) (v : View) : SameQueue s (s.peerStaked v).1 := by
  unfold State.peerStaked
  repeat' split
  all_goals first
    | exact s.viewTo_sameQueue _ _
    | exact s.enterConflict_sameQueue _
    | exact .refl s
    | exact (s.setJob v.slot _).viewTo_sameQueue v.pair .queued

/-! The frames the PMON and the MVC take. -/

theorem State.statusFrame_sameQueue (s : State) (f : Frame) (echo : Bool) : SameQueue s (s.statusFrame f echo).1 := by
  unfold State.statusFrame State.applyStatus
  repeat' split
  all_goals first | exact .refl s | exact SameQueue.noteActivity ⟨rfl, rfl⟩

theorem State.gatewayTo_sameQueue (s : State) (g : Gateway) : SameQueue s (s.gatewayTo g).1 := by
  have hg : SameQueue s { s with pmon := { s.pmon with gateway := g } } := ⟨rfl, rfl⟩
  unfold State.gatewayTo State.endVehicle
  simp only
  repeat' split
  all_goals first | exact hg | exact hg.noteActivity

theorem State.vehicleFrame_sameQueue (s : State) (f : Frame) : SameQueue s (s.vehicleFrame f).1 := by
  unfold State.vehicleFrame
  repeat' split
  all_goals first | exact .refl s | exact s.gatewayTo_sameQueue _

theorem State.sceneFrame_sameQueue (s : State) (f : Frame) : SameQueue s (s.sceneFrame f).1 := by
  unfold State.sceneFrame
  repeat' split
  all_goals first | exact .refl s | exact (State.takeScene_evolves s _ _).sameQueue

theorem State.stopFrame_sameQueue (s : State) (f : Frame) : SameQueue s (s.stopFrame f).1 := by
  unfold State.stopFrame
  repeat' split
  all_goals exact ⟨rfl, rfl⟩

theorem State.learnFrame_sameQueue (s : State) (f : Frame) : SameQueue s (s.learnFrame f).1 := by
  unfold State.learnFrame
  repeat' split
  all_goals first | exact .refl s | exact (State.takeLearn_evolves s _).sameQueue

/-! The effects of the timers, pulses and samples. -/

theorem State.driveOff_sameQueue (s : State) (sl : Slot) (a : AfterBrake) : SameQueue s (s.driveOff sl a) := ⟨rfl, rfl⟩

theorem State.rest_sameQueue (s : State) (sl : Slot) (st : AxisState) (run : Option Run) : SameQueue s (s.rest sl st run) := by
  unfold State.rest
  simp only
  split
  · exact s.noteActivity_around.sameQueue
  · exact ⟨rfl, rfl⟩

theorem State.stall_sameQueue (s : State) (sl : Slot) : SameQueue s (s.stall sl).1 := by
  unfold State.stall
  simp only
  split
  · exact s.driveOff_sameQueue _ _
  · split
    · exact s.driveOff_sameQueue _ _
    · exact s.driveOff_sameQueue _ _
    · exact s.driveOff_sameQueue _ _
    · exact s.rest_sameQueue _ _ _
    · exact ⟨rfl, rfl⟩
    · unfold State.learnHome
      simp only
      repeat' split
      all_goals exact ⟨rfl, rfl⟩

theorem State.brakeExpiry_sameQueue (s : State) (sl : Slot) : SameQueue s (s.brakeExpiry sl).1 := by
  have hset : ∀ d, SameQueue s (s.setDrive sl d) := fun _ => ⟨rfl, rfl⟩
  unfold State.brakeExpiry
  simp only
  split
  · generalize hd : ({ s.drive sl with brakeTimer := none } : Drive) = d
    have h : SameQueue s (s.setDrive sl d) := hset d
    repeat' split
    all_goals first
      | exact h
      | exact h.trans ⟨rfl, rfl⟩
      | exact h.trans (State.beginRelief_evolves _ sl).sameQueue
      | exact h.trans (State.testRun_evolves _ sl _).sameQueue
      | exact h.trans (State.beginWaiting_evolves _ sl).sameQueue
      | exact h.trans (State.endRun_evolves _ sl _).sameQueue
      | exact h.trans (State.rest_sameQueue _ sl _ _)
  · exact .refl s

theorem State.countPulse_sameQueue (s : State) (sl : Slot) : SameQueue s (s.countPulse sl) := by
  unfold State.countPulse
  simp only
  repeat' split
  all_goals exact ⟨rfl, rfl⟩

theorem State.pulse_sameQueue (s : State) (sl : Slot) : SameQueue s (s.pulse sl).1 := by
  have h := s.countPulse_sameQueue sl
  unfold State.pulse
  simp only
  split
  · exact h.trans (Evolves.rebuilt _ sl).sameQueue
  · exact h.trans ((State.markPassed_evolves _ sl).trans (Evolves.rebuilt _ sl)).sameQueue

theorem State.onePress_evolves {loose : Prop} (s : State) : Evolves loose s s.onePress := by
  unfold State.onePress
  repeat' split
  all_goals first | exact .refl s | exact State.placeOutgoing_evolves s _

theorem State.jogChange_sameQueue (s : State) (sl : Slot) (j : JogState) : SameQueue s (s.jogChange sl j).1 := by
  unfold State.jogChange
  simp only
  repeat' split
  all_goals exact ⟨rfl, rfl⟩

theorem State.sampleSwitches_sameQueue (s : State) (pins : SwitchPins) : SameQueue s (s.sampleSwitches pins).1 := by
  have hl : SameQueue s { s with liu := s.liu.sampleSwitches pins } := ⟨rfl, rfl⟩
  have h3 : ∀ t : State, SameQueue t (((t.jogChange .s0 ((s.liu.sampleSwitches pins).jogOf .s0)).andThen
      (fun u => u.jogChange .s1 ((s.liu.sampleSwitches pins).jogOf .s1))).andThen
      (fun u => u.jogChange .s2 ((s.liu.sampleSwitches pins).jogOf .s2))).1 := fun t =>
    ((t.jogChange_sameQueue .s0 _).trans (State.jogChange_sameQueue _ .s1 _)).trans (State.jogChange_sameQueue _ .s2 _)
  unfold State.sampleSwitches
  simp only
  refine SameQueue.trans ?_ (h3 _)
  repeat' split
  all_goals first
    | exact hl
    | exact hl.noteActivity
    | exact hl.trans (State.onePress_evolves _).sameQueue
    | exact hl.noteActivity.trans (State.onePress_evolves _).sameQueue

theorem State.sampleOccupancy_sameQueue (s : State) (pins : OccupancyPins) : SameQueue s (s.sampleOccupancy pins).1 := by
  unfold State.sampleOccupancy State.endOccupied
  simp only
  repeat' split
  all_goals first
    | exact ⟨rfl, rfl⟩
    | exact SameQueue.noteActivity ⟨rfl, rfl⟩

/-- Every command but a release or an assertion of reset completes. -/
theorem exec_completes (c : Instr) (s : State) (hr : ∀ a v b o, c ≠ .resetRelease a v b o) (ha : c ≠ .resetAssertion) :
    Completes s (exec c s) := by
  cases c with
  | resetRelease a v b o => exact absurd rfl (hr a v b o)
  | resetAssertion => exact absurd rfl ha
  | syncEntry =>
    show Completes s (execSyncEntry s)
    unfold execSyncEntry
    split
    · exact .direct ⟨rfl, rfl⟩ rfl
    · exact .stay s
  | syncTimerExpiry =>
    show Completes s (execSyncTimerExpiry s)
    unfold execSyncTimerExpiry
    split
    · exact .settled (State.syncExit_evolves s trivial).sameQueue
    · exact .stay s
  | ownClaimEcho v => exact .settled ((s.withSense v).takeEcho_sameQueue _ _ _ State.ownClaim_sameQueue)
  | peerClaim v =>
    refine .settled ((s.withSense v).takePeer_sameQueue _ _ fun t w f => ?_)
    split
    · exact t.peerClaimed_sameQueue w _
    · exact .refl t
  | ownCedeEcho v => exact .settled ((s.withSense v).takeEcho_sameQueue _ _ _ State.ownCede_sameQueue)
  | peerCede v => exact .settled ((s.withSense v).takePeer_sameQueue _ _ fun t w _ => t.peerCeded_sameQueue w)
  | ownDeclineEcho v => exact .settled ((s.withSense v).takeEcho_sameQueue _ _ _ State.ownDecline_sameQueue)
  | peerDecline v =>
    refine .settled ((s.withSense v).takePeer_sameQueue _ _ fun t w f => ?_)
    split
    · exact t.peerDeclined_sameQueue w _
    · exact .refl t
  | ownStakeEcho v => exact .settled ((s.withSense v).takeEcho_sameQueue _ _ _ State.ownStake_sameQueue)
  | peerStake v => exact .settled ((s.withSense v).takePeer_sameQueue _ _ fun t w _ => t.peerStaked_sameQueue w)
  | statusTaken v => exact .settled ((s.withSense v).take_sameQueue _ _ _ State.statusFrame_sameQueue)
  | vehicleTaken v => exact .settled ((s.withSense v).take_sameQueue _ _ _ fun t f _ => t.vehicleFrame_sameQueue f)
  | sceneTaken v => exact .settled ((s.withSense v).take_sameQueue _ _ _ fun t f _ => t.sceneFrame_sameQueue f)
  | stopTaken v => exact .settled ((s.withSense v).take_sameQueue _ _ _ fun t f _ => t.stopFrame_sameQueue f)
  | learnTaken v => exact .settled ((s.withSense v).take_sameQueue _ _ _ fun t f _ => t.learnFrame_sameQueue f)
  | resultTaken => exact .settled (s.take_sameQueue _ _ _ fun t _ _ => .refl t)
  | frameReceived f =>
    show Completes s (execFrameReceived f s)
    unfold execFrameReceived
    repeat' split
    all_goals exact .direct ⟨rfl, rfl⟩ rfl
  | transmissionAttempt =>
    show Completes s (execTransmissionAttempt s)
    unfold execTransmissionAttempt
    split <;> exact .direct ⟨rfl, rfl⟩ rfl
  | arbitrationLost =>
    show Completes s (execArbitrationLost s)
    unfold execArbitrationLost
    split <;> exact .direct ⟨rfl, rfl⟩ rfl
  | attemptError noAck =>
    show Completes s (execAttemptError noAck s)
    unfold execAttemptError
    simp only
    repeat' split
    all_goals exact .direct ⟨rfl, rfl⟩ rfl
  | frameCompleted =>
    show Completes s (execFrameCompleted s)
    unfold execFrameCompleted
    split <;> exact .direct ⟨rfl, rfl⟩ rfl
  | busOffTimerExpiry v =>
    show Completes s (execBusOffTimerExpiry v s)
    unfold execBusOffTimerExpiry
    split
    · generalize hu : settle ((s.withSense v).rejoined, s.rejoinReports) = u
      have hq : SameQueue s u := by
        rw [← hu]
        exact SameQueue.trans ⟨rfl, rfl⟩ (settle_around ((s.withSense v).rejoined, s.rejoinReports)).sameQueue
      have hd : u.amon.activityDue = false := by rw [← hu]; exact settle_activityDue _
      have ha := State.assignSlots_evolves (loose := True) Config.generalCapacity u
      exact ⟨_, rfl, ha.sameQueue.1.trans hq.1, ha.sameQueue.2.trans hq.2, fun _ => by rw [State.assignSlots_amon, hd]⟩
    · exact .stay s
  | generalSlotAssignment =>
    exact .direct (State.assignSlot_evolves s).sameQueue (by rw [State.assignSlot_amon])
  | statusTimerExpiry =>
    show Completes s (execStatusTimerExpiry s)
    unfold execStatusTimerExpiry
    split <;> exact .direct ⟨rfl, rfl⟩ rfl
  | expectancyTimerExpiry peer v =>
    show Completes s (execExpectancyTimerExpiry peer v s)
    unfold execExpectancyTimerExpiry
    repeat' split
    all_goals first | exact .stay s | exact .settled ⟨rfl, rfl⟩
  | clashWindowExpiry =>
    show Completes s (execClashWindowExpiry s)
    unfold execClashWindowExpiry
    split <;> exact .direct ⟨rfl, rfl⟩ rfl
  | holdTimerExpiry v =>
    show Completes s (execHoldTimerExpiry v s)
    unfold execHoldTimerExpiry
    split
    · exact .settled ((s.withSense v).gatewayTo_sameQueue _)
    · exact .stay s
  | waitTimerExpiry pair v =>
    show Completes s (execWaitTimerExpiry pair v s)
    unfold execWaitTimerExpiry State.waitExpired
    repeat' split
    all_goals first | exact .stay s | exact .settled ⟨rfl, rfl⟩
  | controlInterval v =>
    show Completes s (execControlInterval v s)
    unfold execControlInterval
    split
    · exact .settled ⟨rfl, rfl⟩
    · exact .stay s
  | hallPulse sl v =>
    show Completes s (execHallPulse sl v s)
    unfold execHallPulse
    split
    · exact .settled ((s.withSense v).pulse_sameQueue sl)
    · exact .stay s
  | brakeTimerExpiry sl v => exact .settled ((s.withSense v).brakeExpiry_sameQueue sl)
  | stallTimerExpiry sl v =>
    refine .settled (e := (s.withSense v).stallExpiry sl) ?_
    unfold State.stallExpiry
    simp only
    repeat' split
    all_goals first | exact ⟨rfl, rfl⟩ | exact (s.withSense v).stall_sameQueue sl
  | blankingTimerExpiry sl v =>
    refine .settled (e := (s.withSense v).blankingExpiry sl) ?_
    unfold State.blankingExpiry
    simp only
    repeat' split
    all_goals first
      | exact ⟨rfl, rfl⟩
      | exact SameQueue.trans ⟨rfl, rfl⟩ (State.stall_sameQueue _ sl)
  | jobTimerExpiry sl v =>
    refine .settled (e := (s.withSense v).jobExpiry sl) ?_
    unfold State.jobExpiry
    simp only
    repeat' split
    all_goals first | exact ⟨rfl, rfl⟩ | exact (s.withSense v).rest_sameQueue sl _ _
  | calibrationWriteCompletion sl v =>
    show Completes s (execCalibrationWriteCompletion sl v s)
    unfold execCalibrationWriteCompletion
    split
    · exact .stay s
    · exact .settled ⟨rfl, rfl⟩
  | quietTimerExpiry =>
    show Completes s (execQuietTimerExpiry s)
    unfold execQuietTimerExpiry
    repeat' split
    all_goals exact .direct ⟨rfl, rfl⟩ rfl
  | sampleTimerExpiry v =>
    show Completes s (execSampleTimerExpiry v s)
    unfold execSampleTimerExpiry
    split
    · exact .settled (State.takeSample_evolves (s.withSense v) _).sameQueue
    · exact .stay s
  | switchSample pins v =>
    show Completes s (execSwitchSample pins v s)
    unfold execSwitchSample
    split
    · exact .settled ((s.withSense v).sampleSwitches_sameQueue pins)
    · exact .stay s
  | occupancySample pins v =>
    show Completes s (execOccupancySample pins v s)
    unfold execOccupancySample
    split
    · exact .settled ((s.withSense v).sampleOccupancy_sameQueue pins)
    · exact .stay s
  | alwaysOnSupplyLoss => exact .direct ⟨rfl, rfl⟩ rfl

/-- A release of reset has a next state, keeps the waiting commands and leaves no activity event untaken. -/
theorem execResetRelease_completes (a : StrapPins) (v : Nat) (b : SwitchPins) (o : OccupancyPins) (s : State) :
    ∃ t, exec (.resetRelease a v b o) s = .next t ∧ t.pending = s.pending ∧
      (s.amon.activityDue = false → t.amon.activityDue = false) := by
  show ∃ t, execResetRelease a v b o s = .next t ∧ _
  unfold execResetRelease
  split
  · split
    · exact ⟨_, rfl, rfl, fun _ => rfl⟩
    · rename_i r _
      have hs := (State.takeSample_evolves (loose := True) ((s.started r b o).withSense v) Config.sampleActive).sameQueue
      exact ⟨_, rfl, (settle_around _).pending.trans hs.1, fun _ => settle_activityDue _⟩
  · exact ⟨s, rfl, rfl, id⟩

/-- Settles O3, by the kind of command: what a command does before its reports keeps the waiting commands and the role, and so does a
step carried to its end, which takes every activity event. -/
theorem everyCommandCompletes : Obligations.EveryCommandCompletes := by
  intro c s
  by_cases hr : ∃ a v b o, c = .resetRelease a v b o
  · obtain ⟨a, v, b, o, rfl⟩ := hr
    obtain ⟨t, ht, hp, ha⟩ := execResetRelease_completes a v b o s
    exact ⟨t, ht, hp, fun h => absurd rfl (h a v b o), ha⟩
  · by_cases ha : c = .resetAssertion
    · subst ha
      exact ⟨_, rfl, rfl, fun _ h => absurd rfl h, fun _ => rfl⟩
    · obtain ⟨t, ht, hp, hq, hd⟩ := exec_completes c s (fun a v b o h => hr ⟨a, v, b, o, h⟩) ha
      exact ⟨t, ht, hp, fun _ _ => hq, hd⟩

end Sys2Proof.Machine
end

section
/-! PROOFS. The release of reset, with a strap code of no role (O6) and with one of a role (O5). -/

namespace Sys2Proof.Machine

/-! ### Codes that are no role -/

theorem strapCode_no_role {p : StrapPins} (h2 : p.role2 = true) (h1 : p.role1 = true) : roleOf (strapCode p) = none := by
  cases h0 : p.role0 <;> simp [strapCode, h2, h1, h0, roleOf]

/-- Settles O6: no role has strap code 6 or 7, so that the station stands as under reset but in STANDSTILL. -/
theorem resetReleaseInvalidStrap : Obligations.ResetReleaseInvalidStrap := by
  intro s p n sw oc hs h2 h1
  have hx : exec (.resetRelease p n sw oc) s = .next { State.underReset s.rcs s.pending with station := .standstill } := by
    show execResetRelease p n sw oc s = _
    simp [execResetRelease, hs, strapCode_no_role h2 h1]
  refine ⟨_, hx, rfl, rfl, rfl, rfl, fun sl => ?_, rfl, rfl, rfl, rfl⟩
  cases sl <;> exact ⟨rfl, rfl, rfl⟩

/-! ### The first supply sample -/

/-- Where no axis is driven there is no drive to turn off (R98). -/
theorem State.stopDrives_at_rest (s : State) (h : ∀ sl : Slot, (s.drive sl).axis ≠ .driving) : s.stopDrives = s := by
  simp [State.stopDrives, allSlots, h]

/-- At CRITICAL with no job active and none waiting, the MVC ends nothing (R127). -/
theorem State.endAll_idle (s : State) (o : JobOutcome) (hj : ∀ sl : Slot, (s.job sl).active = false)
    (hq : ∀ sl : Slot, s.queuedAt sl = none) : s.endAll o = (s, [.endRequests [] o]) := by
  have hqs : PerSlot.tabulate (fun sl => (s.queuedAt sl).bind (fun q => q.endWith o)) = s.mvc.queued := by
    simp only [hq, Option.bind_none]
    have h0 : s.mvc.queued.s0 = none := hq .s0
    have h1 : s.mvc.queued.s1 = none := hq .s1
    have h2 : s.mvc.queued.s2 = none := hq .s2
    generalize s.mvc.queued = q at h0 h1 h2
    cases q
    simp_all [PerSlot.tabulate]
  simp [State.endAll, hqs, hj]

/-- A supply sample on a station at rest sets the level and the counter and restarts the timer, and nothing else of the step has an
effect (R133, R134). -/
theorem settle_takeSample_at_rest (s : State) (period : Nat) (hd : ∀ sl : Slot, (s.drive sl).axis ≠ .driving)
    (hj : ∀ sl : Slot, (s.job sl).active = false) (hq : ∀ sl : Slot, s.queuedAt sl = none) (ha : s.amon.activityDue = false) :
    settle (s.takeSample period) =
      { s with smon := { s.smon with
          level := (applySample s.smon.level s.smon.recovery (supplySample s.vsense)).1
          recovery := (applySample s.smon.level s.smon.recovery (supplySample s.vsense)).2
          timer := some period } } := by
  unfold State.takeSample
  simp only
  generalize ht : ({ s with smon := _ } : State) = t
  have hta : t.amon.activityDue = false := by rw [← ht]; exact ha
  split
  · have hstop : t.stopDrives = t := t.stopDrives_at_rest (by rw [← ht]; exact hd)
    have hend : handle .supplyCritical t = (t, [.endRequests [] .supply]) :=
      t.endAll_idle .supply (by rw [← ht]; exact hj) (by rw [← ht]; exact hq)
    have hk : Takes 2 [.supplyCritical] t t := .answer rfl (by rw [hend]; exact .skip rfl rfl)
    rw [hstop, Takes.settle (e := (t, [.supplyCritical])) hk (by decide)]
    simp [State.takeActivity, hta]
  · exact settle_quiet t hta

/-! ### The station in START -/

section
variable (s : State) (r : Role) (sw : SwitchPins) (oc : OccupancyPins)

@[simp] theorem State.started_drive (sl : Slot) : (s.started r sw oc).drive sl = s.rcs.startDrive r sl := PerSlot.get_tabulate _ sl

@[simp] theorem State.started_job (sl : Slot) : (s.started r sw oc).job sl = Job.free := PerSlot.get_all _ sl

@[simp] theorem State.started_queuedAt (sl : Slot) : (s.started r sw oc).queuedAt sl = none := PerSlot.get_all _ sl

/-- The envelopes built in START are those of the station in START (R21, R25). -/
theorem State.started_envelope (sl : Slot) : (s.started r sw oc).clu.envelopes.get sl = (s.started r sw oc).envelopeFor sl :=
  PerSlot.get_tabulate _ sl

@[simp] theorem Rcs.startDrive_none (x : Rcs) {sl : Slot} (h : kindOf r sl = none) : x.startDrive r sl = .blank := by
  simp [Rcs.startDrive, h]

/-- The drive record of a slot that holds an axis, at START (R85, R164, R166, R167). -/
theorem Rcs.startDrive_some (x : Rcs) {sl : Slot} (h : (kindOf r sl).isSome = true) :
    x.startDrive r sl =
      { Drive.blank with
        axis := .idle, span := (x.calibration.get sl).spanFor r, disabled := (x.calibration.get sl).spanFor r == 0,
        count := if x.warm r then (x.retained.get sl).count else 0,
        referenced := (x.warm r && (x.retained.get sl).referenced) && (x.calibration.get sl).spanFor r != 0 } := by
  obtain ⟨k, hk⟩ := Option.isSome_iff_exists.mp h
  cases hw : x.warm r <;> simp [Rcs.startDrive, hk, hw]

theorem Rcs.startDrive_not_driving (x : Rcs) (sl : Slot) : (x.startDrive r sl).axis ≠ .driving := by
  cases h : kindOf r sl with
  | none => simp [h, Drive.blank]
  | some k => rw [Rcs.startDrive_some r x (by simp [h])]; simp

theorem Rcs.atStart_retained (x : Rcs) (sl : Slot) :
    (x.atStart r).retained.get sl =
      if (kindOf r sl).isSome then ⟨(x.startDrive r sl).count, (x.startDrive r sl).referenced⟩ else x.retained.get sl := by
  cases h : kindOf r sl <;> simp [Rcs.atStart, h]

end

/-- The span that a calibration record gives, in the manual's numbers (R5, R164). -/
theorem CalRecord.spanFor_eq (c : CalRecord) (r : Role) :
    c.spanFor r = if c.marker = true ∧ c.role = some r ∧ 200 ≤ c.span ∧ c.span ≤ 8000 then c.span else 0 := rfl

/-- The first sample's level, from UNKNOWN (R135). -/
theorem applySample_unknown (n v : Nat) :
    (applySample .unknown n v).1 = if v < 90 then .critical else if v < 105 then .low else .ok := by
  simp [applySample, levelAfter]

/-- One raw sample debounces no input that takes more than one (R144). -/
theorem debounce_first {n : Nat} (h : 1 < n) (raw : Bool) : (debounce n .initial raw).stable = false := by
  obtain ⟨m, rfl⟩ : ∃ m, n = m + 2 := ⟨n - 2, by omega⟩
  simp [debounce, Debounce.initial]

/-- Settles O5: the first sample of the supply finds the station at rest, so that the station in START with that sample taken is what
the release leaves. -/
theorem resetReleaseStarts : Obligations.ResetReleaseStarts := by
  intro s p n sw oc r hs hr
  let b := (s.started r sw oc).withSense n
  have hx : exec (.resetRelease p n sw oc) s = .next (settle (b.takeSample Config.sampleActive)) := by
    show execResetRelease p n sw oc s = _
    have hr' : roleOf (strapCode p) = some r := hr
    simp [execResetRelease, hs, hr', b]
  rw [settle_takeSample_at_rest b _
    (fun sl => by rw [show b.drive sl = _ from State.started_drive s r sw oc sl]; exact Rcs.startDrive_not_driving r _ sl)
    (fun sl => by rw [show b.job sl = _ from State.started_job s r sw oc sl]; rfl)
    (fun sl => State.started_queuedAt s r sw oc sl) rfl] at hx
  refine ⟨_, hx, rfl, rfl, rfl, rfl, rfl, rfl, rfl, fun sl => State.started_envelope s r sw oc sl, rfl, rfl, rfl, rfl, rfl, rfl, ?_, ?_,
    rfl, rfl, rfl, rfl, rfl, ?_, rfl, rfl, rfl, rfl, ?_, ?_, ?_, rfl⟩
  · intro sl hk
    refine ⟨(State.started_drive s r sw oc sl).trans (by simp [hk]), ?_⟩
    exact (Rcs.atStart_retained r s.rcs sl).trans (by simp [hk])
  · intro sl hk
    simp only
    have hd : ∀ m : Smon, State.drive { b with smon := m } sl = s.rcs.startDrive r sl := fun _ => State.started_drive s r sw oc sl
    have hret : ∀ m : Smon, (State.rcs { b with smon := m }).retained.get sl = _ := fun _ => Rcs.atStart_retained r s.rcs sl
    rw [hd, hret, Rcs.startDrive_some r s.rcs hk]
    simp only [← CalRecord.spanFor_eq]
    refine ⟨trivial, beq_eq_decide _ _, ?_, ?_, trivial, ?_⟩
    · simp [Rcs.warm]
    · rw [Bool.eq_iff_iff]; simp [Rcs.warm, and_assoc]
    · simp [hk]
  · exact applySample_unknown 0 (supplySample n)
  · intro sl
    constructor
    · exact (congrArg Debounce.stable (PerSlot.get_tabulate _ sl)).trans (debounce_first (by decide) _)
    · exact (congrArg Debounce.stable (PerSlot.get_tabulate _ sl)).trans (debounce_first (by decide) _)
  · exact debounce_first (by decide) _
  · exact debounce_first (by decide) _

end Sys2Proof.Machine
end

section
/-! PROOFS. The view of a pair in a new state, and the local arbiter of a self pair (O18). -/

namespace Sys2Proof.Machine

/-! ### A view in a new state -/

@[simp] theorem State.grantEntries_clu (s : State) (v : View) : (s.grantEntries v).clu = s.clu := by
  unfold State.grantEntries
  generalize v.ownSlots = l
  induction l generalizing s with
  | nil => rfl
  | cons a l ih =>
    refine (ih _).trans ?_
    simp only
    split <;> rfl

/-- The views after a view of a pair has come into another state: the records of that pair go to it. -/
theorem State.view?_viewTo {s : State} {p : Nat} {v : View} {st : ViewState} (hv : s.view? p = some v) (hst : v.state ≠ st) (q : Nat) :
    (s.viewTo p st).1.view? q = (s.view? q).map (fun w => if w.pair = p then w.goTo st else w) := by
  have hp := State.view?_some_pair hv
  simp only [State.viewTo, hv, hst, if_false]
  rw [State.view?_of_clu (State.grantEntries_clu _ _), State.view?_moveView, hp]

/-- The view itself, in its other state. -/
theorem State.view?_viewTo_self {s : State} {p : Nat} {v : View} {st : ViewState} (hv : s.view? p = some v) (hst : v.state ≠ st) :
    (s.viewTo p st).1.view? p = some (v.goTo st) := by
  rw [State.view?_viewTo hv hst, hv, Option.map_some, if_pos (State.view?_some_pair hv)]

/-- A pair's own view after an update of its record. -/
theorem State.view?_updView_self {s : State} {p : Nat} {v : View} {f : View → View} (hv : s.view? p = some v)
    (hf : ∀ w, (f w).pair = w.pair) : (s.updView p f).view? p = some (f v) := by
  rw [State.view?_updView s p f hf, hv, Option.map_some, if_pos (State.view?_some_pair hv)]

/-! ### The arbiter of a self pair -/

@[simp] theorem SelfAxis.other_other (x : SelfAxis) : x.other.other = x := by cases x <;> rfl

theorem heldBy_ne_opened (x : SelfAxis) : heldBy x ≠ .opened := by cases x <;> decide

theorem heldBy_other_ne (x : SelfAxis) : heldBy x.other ≠ heldBy x := by cases x <;> decide

@[simp] theorem View.dropClaim_state (x : SelfAxis) (v : View) : (v.dropClaim x).state = v.state := by cases x <;> rfl

/-- A self pair's record that has come to be held by an axis: nothing waits, and the axis's claim is served (R62, R63). -/
theorem View.goTo_self {v : View} {sb : Slot} {b : Band} (h : v.other = .self sb b) (st : ViewState) :
    v.goTo st = { v with state := st, waitTimer := none, waiter := none, waiting := none, yieldAsked := false } := by
  simp [View.goTo, h]

/-- What the record of a self pair is once an axis's claim has been granted (R62). -/
def View.granted (v : View) (x : SelfAxis) : View := (v.dropClaim x).goTo (heldBy x)

section
variable {s : State} {p : Nat} {v : View} {sb : Slot} {b : Band} (hv : s.view? p = some v)
include hv

/-- An axis that has entered no claim gets no decision. -/
theorem State.arbitrateAxis_unclaimed {x : SelfAxis} (hc : v.claimOf x = none) : s.arbitrateAxis p x = (s, []) := by
  simp [State.arbitrateAxis, hv, hc]

/-- The claim of an axis on an OPEN self pair is granted. -/
theorem State.arbitrateAxis_opened {x : SelfAxis} {st : Standing} (hc : v.claimOf x = some st) (ho : v.state = .opened) :
    (s.arbitrateAxis p x).1.view? p = some (v.granted x) := by
  simp only [State.arbitrateAxis, hv, hc, ho, if_true, State.grantSelf]
  refine State.view?_viewTo_self (State.view?_updView_self hv (fun w => (View.dropClaim_frame x w).1)) ?_
  rw [View.dropClaim_state, ho]
  exact (heldBy_ne_opened x).symm

/-- The claim of an axis on a self pair that the other one holds waits behind it. -/
theorem State.arbitrateAxis_held {x : SelfAxis} {st : Standing} (hc : v.claimOf x = some st) (hh : v.state = heldBy x.other) :
    (s.arbitrateAxis p x).1.view? p =
      some { v.dropClaim x with waiting := some x, waitTimer := some 8000, waiter := some st, yieldAsked := false } := by
  have hp := State.view?_some_pair hv
  subst hp
  simp only [State.arbitrateAxis, hv, hc, hh, heldBy_ne_opened, heldBy_other_ne, if_false, if_true, State.waitSelf,
    State.view?_setJob]
  exact State.view?_updView_self hv (fun w => (View.dropClaim_frame x w).1)

variable (ho : v.other = .self sb b) (hop : v.state = .opened)
include ho hop

/-- One axis alone claims an OPEN self pair, and comes to hold it (R62). -/
theorem State.arbitrate_one {x : SelfAxis} {st : Standing} (hc : v.claimOf x = some st) (hn : v.claimOf x.other = none) :
    (s.arbitrate p).1.view? p = some (v.granted x) := by
  have harb : s.arbitrate p = (s.arbitrateAxis p v.firstAxis).andThen (fun t => t.arbitrateAxis p v.firstAxis.other) := by
    simp only [State.arbitrate, hv, ho]
  have hgrant := State.arbitrateAxis_opened hv hc hop
  have hx : v.firstAxis = x ∨ v.firstAxis = x.other := by cases x <;> cases v.firstAxis <;> simp [SelfAxis.other]
  rw [harb]
  rcases hx with hx | hx
  · have hnone : (v.granted x).claimOf x.other = none := by
      rw [View.granted, View.goTo_self ((View.dropClaim_frame x v).2.2.2.1.trans ho)]
      cases x <;> exact hn
    simp only [hx, Effect.andThen, State.arbitrateAxis_unclaimed hgrant hnone]
    exact hgrant
  · simp only [hx, Effect.andThen, State.arbitrateAxis_unclaimed hv hn, SelfAxis.other_other]
    exact hgrant

/-- Both axes claim an OPEN self pair: the one of the lower slot holds it, and the other waits behind it (R62). -/
theorem State.arbitrate_both {sa so : Standing} (ha : v.claimOf v.firstAxis = some sa) (hb : v.claimOf v.firstAxis.other = some so) :
    (s.arbitrate p).1.view? p =
      some { (v.granted v.firstAxis).dropClaim v.firstAxis.other with
        waiting := some v.firstAxis.other, waitTimer := some 8000, waiter := some so, yieldAsked := false } := by
  have harb : s.arbitrate p = (s.arbitrateAxis p v.firstAxis).andThen (fun t => t.arbitrateAxis p v.firstAxis.other) := by
    simp only [State.arbitrate, hv, ho]
  have hgrant := State.arbitrateAxis_opened hv ha hop
  rw [harb]
  generalize v.firstAxis = x at *
  have hself := View.goTo_self ((View.dropClaim_frame x v).2.2.2.1.trans ho) (heldBy x)
  refine State.arbitrateAxis_held hgrant ?_ ?_
  · rw [View.granted, hself]
    cases x <;> exact hb
  · rw [View.granted, hself, SelfAxis.other_other]

end

/-- Settles O18: the arbiter serves the lower slot's claim and then the other's, which finds the pair held. -/
theorem arbiterServesLowerSlot : Obligations.ArbiterServesLowerSlot := by
  intro s p v sb bb hv ho hop _
  have hself : ∀ x, v.granted x = _ := fun x => View.goTo_self ((View.dropClaim_frame x v).2.2.2.1.trans ho) (heldBy x)
  refine ⟨fun hA hB => ?_, fun hA hB => ?_, fun hA hB => ?_⟩
  · obtain ⟨st, hA⟩ := Option.isSome_iff_exists.mp hA
    refine ⟨_, State.arbitrate_one (x := .a) hv ho hop hA hB, ?_⟩
    rw [hself]
    exact ⟨rfl, rfl, rfl, hB⟩
  · obtain ⟨st, hB⟩ := Option.isSome_iff_exists.mp hB
    refine ⟨_, State.arbitrate_one (x := .b) hv ho hop hB hA, ?_⟩
    rw [hself]
    exact ⟨rfl, rfl, hA, rfl⟩
  · obtain ⟨sa, hA⟩ := Option.isSome_iff_exists.mp hA
    obtain ⟨so, hB⟩ := Option.isSome_iff_exists.mp hB
    have hslots : v.selfSlot .a = v.slot ∧ v.selfSlot .b = sb := by simp [View.selfSlot, ho]
    by_cases hlt : slotIndex v.slot < slotIndex sb
    · have hf : v.firstAxis = .a := by rw [View.firstAxis, hslots.1, hslots.2, if_pos hlt.le]
      have h := State.arbitrate_both hv ho hop (by rw [hf]; exact hA) (by rw [hf]; exact hB)
      refine ⟨_, h, ?_⟩
      rw [hf, hself, if_pos hlt]
      exact ⟨rfl, rfl, rfl, rfl, rfl, hB.symm⟩
    · have hne : slotIndex v.slot ≠ slotIndex sb := by
        intro h
        have : v.slot = sb := by revert h; cases v.slot <;> cases sb <;> decide
        contradiction
      have hf : v.firstAxis = .b := by rw [View.firstAxis, hslots.1, hslots.2, if_neg (by omega)]
      have h := State.arbitrate_both hv ho hop (by rw [hf]; exact hB) (by rw [hf]; exact hA)
      refine ⟨_, h, ?_⟩
      rw [hf, hself, if_neg hlt]
      exact ⟨rfl, rfl, rfl, rfl, rfl, hA.symm⟩

end Sys2Proof.Machine
end

section
/-! PROOFS. A frame taken off the receive queue: what the station is as its effect begins, and what the effect on the view of its pair
leaves of the other views. -/

namespace Sys2Proof.Machine

variable {s t u : State}

/-! ### A frame off the queue -/

/-- The station as the effect of a frame begins: the frame has left the receive queue, and its taking is an activity event (R140, R149). -/
def State.frameTaken (s : State) (n : Nat) : State := (s.withSense n).popRx.noteActivity

@[simp] theorem State.frameTaken_station (s : State) (n : Nat) : (s.frameTaken n).station = s.station := by simp [State.frameTaken, State.popRx]
@[simp] theorem State.frameTaken_role (s : State) (n : Nat) : (s.frameTaken n).role = s.role := by simp [State.frameTaken, State.popRx]
@[simp] theorem State.frameTaken_clu (s : State) (n : Nat) : (s.frameTaken n).clu = s.clu := by simp [State.frameTaken, State.popRx]
@[simp] theorem State.frameTaken_pmon (s : State) (n : Nat) : (s.frameTaken n).pmon = s.pmon := by simp [State.frameTaken, State.popRx]
@[simp] theorem State.frameTaken_adu (s : State) (n : Nat) : (s.frameTaken n).adu = s.adu := by simp [State.frameTaken, State.popRx]
@[simp] theorem State.frameTaken_mvc (s : State) (n : Nat) : (s.frameTaken n).mvc = s.mvc := by simp [State.frameTaken, State.popRx]
@[simp] theorem State.frameTaken_smon (s : State) (n : Nat) : (s.frameTaken n).smon = s.smon := by simp [State.frameTaken, State.popRx]
@[simp] theorem State.frameTaken_liu (s : State) (n : Nat) : (s.frameTaken n).liu = s.liu := by simp [State.frameTaken, State.popRx]
@[simp] theorem State.frameTaken_view? (s : State) (n p : Nat) : (s.frameTaken n).view? p = s.view? p := by simp [State.view?]
@[simp] theorem State.frameTaken_job (s : State) (n : Nat) (sl : Slot) : (s.frameTaken n).job sl = s.job sl := by simp [State.job]
@[simp] theorem State.frameTaken_queuedAt (s : State) (n : Nat) (sl : Slot) : (s.frameTaken n).queuedAt sl = s.queuedAt sl := by
  simp [State.queuedAt]
@[simp] theorem State.frameTaken_drive (s : State) (n : Nat) (sl : Slot) : (s.frameTaken n).drive sl = s.drive sl := by simp [State.drive]

/-- Taking a frame off the queue leaves the queue's rest, and every passage as it is. -/
theorem State.frameTaken_passages {x : RxFrame} {rest : List RxFrame} (h : s.bus.rx = x :: rest) (n : Nat) :
    SamePassages (s.leaving rest) (s.frameTaken n) := by
  have hpop : SamePassages (s.leaving rest) (s.withSense n).popRx := by
    refine .ofClu ⟨rfl, rfl, rfl, rfl, rfl, ?_, rfl, rfl, rfl, rfl, rfl, rfl, rfl, rfl, rfl, rfl, fun _ => rfl⟩ rfl rfl rfl rfl
    simp [State.leaving, State.popRx, h]
  exact hpop.trans (Evolves.activity _).passages

theorem TakesFrame.taking' {kind : Nat} {echo : Bool} {f : Frame} {rest : List RxFrame} (h : TakesFrame s kind echo f rest) (n : Nat) :
    (s.withSense n).popRx.taking = true := by
  have := h.taking
  simpa [State.taking, State.popRx] using this

/-- A frame that the station takes is no role clash (R77). -/
theorem TakesFrame.isClash {kind : Nat} {f : Frame} {rest : List RxFrame} (h : TakesFrame s kind false f rest) (n : Nat) :
    (s.withSense n).popRx.isClash f = false := by
  have hc := h.clash rfl
  cases hr : s.role with
  | none => simp [State.isClash, State.popRx, hr]
  | some r => simpa [State.isClash, State.popRx, hr, State.sender] using hc r hr

theorem TakesFrame.headIs {kind : Nat} {echo : Bool} {f : Frame} {rest : List RxFrame} (h : TakesFrame s kind echo f rest) (n : Nat) :
    (s.withSense n).headIs kind echo = some f := by
  simp [State.headIs, h.head, h.kind]

theorem TakesFrame.headOf {kind : Nat} {echo : Bool} {f : Frame} {rest : List RxFrame} (h : TakesFrame s kind echo f rest) (n : Nat) :
    (s.withSense n).headOf kind = some ⟨f, echo⟩ := by
  simp [State.headOf, h.head, h.kind]

/-- The echo of an own passage frame, on a peer pair of the list (R37, R38). -/
theorem TakesFrame.takeEcho {kind : Nat} {f : Frame} {rest : List RxFrame} {v : View} (h : TakesFrame s kind true f rest)
    (hv : s.view? (f.byte 0) = some v) (hp : v.peerRole.isSome = true) (n : Nat) (k : PassageKind) (act : State → View → Effect) :
    (s.withSense n).takeEcho kind k act =
      (act ((s.frameTaken n).updView v.pair (View.landed k)) (v.landed k)).thenServe v.pair := by
  have hv' : (s.withSense n).popRx.noteActivity.view? (f.byte 0) = some v := (s.frameTaken_view? n _).trans hv
  simp only [State.takeEcho, h.headIs n, h.taking' n, hv', hp, if_true]
  rfl

/-- The passage frame of a pair's peer (R37). -/
theorem TakesFrame.takePeer {kind : Nat} {f : Frame} {rest : List RxFrame} {v : View} (h : TakesFrame s kind false f rest)
    (hv : s.view? (f.byte 0) = some v) (hp : v.peerRole.map roleCode = some f.sender) (n : Nat)
    (act : State → View → Frame → Effect) :
    (s.withSense n).takePeer kind act =
      (act (s.frameTaken n) v f).andThen
        (fun u => (u, if (u.view? v.pair).map (·.state) = some v.state then [] else [.release v.pair])) := by
  have hv' : (s.withSense n).popRx.noteActivity.view? (f.byte 0) = some v := (s.frameTaken_view? n _).trans hv
  simp [State.takePeer, h.headIs n, h.taking' n, h.isClash n, hv', hp]
  rfl

/-- A frame of a kind whose taking is an activity event, handed to its block (R149). -/
theorem TakesFrame.take {kind : Nat} {echo : Bool} {f : Frame} {rest : List RxFrame} (h : TakesFrame s kind echo f rest) (n : Nat)
    (act : State → Frame → Bool → Effect) : (s.withSense n).take kind true act = act (s.frameTaken n) f echo := by
  have hc : (!echo && (s.withSense n).popRx.isClash f) = false := by
    cases echo with
    | true => rfl
    | false => simp [h.isClash n]
  simp only [State.take, h.headOf n, h.taking' n, hc, if_true]
  rfl

/-! ### A view set as R36 has it -/

theorem State.view?_viewAs (s : State) (p : Nat) (st : ViewState) (w : Option Standing) (q : Nat) :
    (s.viewAs p st w).view? q =
      (s.view? q).map (fun v => if v.pair = p then
        { v with state := st, waiter := w, waitTimer := if st = .queued then some Config.waitTime else none } else v) :=
  State.view?_updView s p
    (fun v => { v with state := st, waiter := w, waitTimer := if st = .queued then some Config.waitTime else none })
    (fun _ => rfl) q

theorem State.viewAs_around (s : State) (p : Nat) (st : ViewState) (w : Option Standing) : SameAround s (s.viewAs p st w) :=
  ⟨rfl, rfl, rfl, rfl, rfl, rfl, rfl, rfl, rfl, rfl, rfl, rfl, rfl, rfl, rfl, rfl, fun _ => rfl⟩

/-- Setting one view alike in two states. -/
theorem SamePassages.viewAs (h : SamePassages s t) (p : Nat) (st : ViewState) (w : Option Standing) :
    SamePassages (s.viewAs p st w) (t.viewAs p st w) where
  toSameAround := ((s.viewAs_around p st w).symm.trans h.toSameAround).trans (t.viewAs_around p st w)
  station := h.station
  syncTimer := h.syncTimer
  peers := h.peers
  views := fun q x hx hp => by
    rw [State.view?_viewAs] at hx
    obtain ⟨v, hv, rfl⟩ := Option.map_eq_some_iff.mp hx
    have hpv : v.peerRole.isSome = true := by split at hp <;> exact hp
    obtain ⟨y, hy, h1, h2, h3, h4⟩ := h.views q v hv hpv
    rw [State.view?_viewAs, hy]
    refine ⟨_, rfl, ?_⟩
    simp only [(State.view?_some_pair hv).trans (State.view?_some_pair hy).symm]
    split
    · exact ⟨h1, h2, h3, .refl _, fun _ => rfl, .inl rfl, .inl rfl⟩
    · exact ⟨h1, h2, h3, h4⟩

/-- A view that is set whole does not depend on the waiter it had. -/
theorem State.viewAs_updView_waiter (s : State) (p : Nat) (x : Option Standing) (st : ViewState) (w : Option Standing) :
    (s.updView p (fun v => { v with waiter := x })).viewAs p st w = s.viewAs p st w := by
  simp only [State.viewAs, State.updView, List.map_map]
  congr 2
  refine List.map_congr_left fun v _ => ?_
  by_cases h : v.pair = p <;> simp [h]

theorem State.grantEntries_eq (s : State) (v : View) : ∃ js, s.grantEntries v = { s with mvc := { s.mvc with jobs := js } } := by
  unfold State.grantEntries
  generalize v.ownSlots = l
  induction l generalizing s with
  | nil => exact ⟨s.mvc.jobs, rfl⟩
  | cons a l ih =>
    rw [List.foldl_cons]
    split
    · obtain ⟨js, h⟩ := ih (s.setJob a ((s.job a).mark v.pair v.grant))
      exact ⟨js, h⟩
    · exact ih s

/-- A view in a new state changes its record, the envelopes and the jobs, and nothing else. -/
theorem State.viewTo_eq (s : State) (p : Nat) (st : ViewState) :
    ∃ vs es js, (s.viewTo p st).1 = { s with clu := { s.clu with views := vs, envelopes := es }, mvc := { s.mvc with jobs := js } } := by
  unfold State.viewTo
  split
  · exact ⟨s.clu.views, s.clu.envelopes, s.mvc.jobs, rfl⟩
  · rename_i v _
    split
    · exact ⟨s.clu.views, s.clu.envelopes, s.mvc.jobs, rfl⟩
    · obtain ⟨es, hm⟩ := State.moveView_eq s v st
      obtain ⟨js, hg⟩ := State.grantEntries_eq (s.moveView v st) (v.goTo st)
      exact ⟨_, es, js, by rw [hg, hm]; rfl⟩

/-- What waits at a peer pair whose view comes into another state (R36, R52). -/
theorem View.goTo_waits {v : View} {st : ViewState} (hp : v.peerRole.isSome = true) (hst : v.state ≠ st) :
    (v.goTo st).waiter = (if st = .ownWait then v.waiter else none) ∧
      (v.goTo st).waitTimer = if st = .queued then some Config.waitTime else none := by
  cases ho : v.other with
  | self sb b => simp [View.peerRole, ho] at hp
  | peer r k b =>
    refine ⟨by simp [View.goTo, ho], ?_⟩
    by_cases h : st = .queued
    · have hne : v.state ≠ .queued := h ▸ hst
      simp [View.goTo, ho, h, hne]
    · simp [View.goTo, ho, h]

/-- A peer pair's view in a new state is as R36 has it, and no other view moves. -/
theorem State.viewTo_passages {p : Nat} {v : View} {st : ViewState} (hv : s.view? p = some v) (hp : v.peerRole.isSome = true)
    (hst : v.state ≠ st) :
    SamePassages (s.viewAs p st (if st = .ownWait then v.waiter else none)) (s.viewTo p st).1 := by
  obtain ⟨vs, es, js, heq⟩ := State.viewTo_eq s p st
  refine ⟨(s.viewAs_around p st _).symm.trans (State.viewTo_evolves (loose := True) s p st (.inl trivial)).around,
    by rw [heq]; rfl, by rw [heq]; rfl, by rw [heq]; rfl, fun q x hx _ => ?_⟩
  rw [State.view?_viewAs] at hx
  obtain ⟨w, hw, rfl⟩ := Option.map_eq_some_iff.mp hx
  rw [State.view?_viewTo hv hst, hw]
  refine ⟨_, rfl, ?_⟩
  by_cases hwp : w.pair = p
  · have hwv : w = v := by
      have hq : q = p := (State.view?_some_pair hw).symm.trans hwp
      rw [hq, hv] at hw
      exact (Option.some.inj hw).symm
    subst hwv
    obtain ⟨_, h2, h3, h4, h5⟩ := View.goTo_frame w st
    simp only [hwp, if_true]
    obtain ⟨hwr, hwt⟩ := View.goTo_waits hp hst
    refine ⟨h2, h3, h4, ?_, fun _ => hwr, .inl hwr, .inl hwt⟩
    rw [h5]
    exact .refl st
  · simp only [hwp, if_false]
    exact ⟨trivial, trivial, trivial, .refl _⟩

/-- What an own frame's echo leaves in flight is no concern of the passages. -/
theorem State.landed_passages (s : State) (p : Nat) (k : PassageKind) : SamePassages s (s.updView p (View.landed k)) := by
  have h : ∀ v : View, (v.landed k).pair = v.pair ∧ (v.landed k).slot = v.slot ∧ (v.landed k).band = v.band ∧
      (v.landed k).other = v.other ∧ (v.landed k).state = v.state ∧ (v.landed k).waiter = v.waiter ∧
      (v.landed k).waitTimer = v.waitTimer := by
    intro v; unfold View.landed; split <;> exact ⟨rfl, rfl, rfl, rfl, rfl, rfl, rfl⟩
  exact (Evolves.note s p _ h).passages

end Sys2Proof.Machine
end

section
/-! PROOFS. The CLAIM frames and the views they move (O10), with what the echo of the own CLAIM makes of the job's entry. -/

namespace Sys2Proof.Machine

variable {s t u : State}

/-! ### The passages after a CLAIM -/

/-- An echo's effect that keeps the passages of `S` and reports to this station's blocks alone keeps them to the end of the step. -/
theorem settle_thenServe_passages {S : State} {e : Effect} (h : SamePassages S e.1) (hl : AllLocal e.2) (p : Nat) :
    SamePassages S (settle (e.thenServe p)) :=
  (h.trans (State.serveDue_evolves (loose := False) e.1 p).passages).trans (settle_passages (e := e.thenServe p) (Effect.thenServe_local hl p))

/-- The effect of a peer's frame that keeps the passages of `S`, and the test of release behind it (R53), keep them to the end of the
step. -/
theorem settle_release_passages {S : State} {e : Effect} (h : SamePassages S e.1) (hl : AllLocal e.2) (v : View) :
    SamePassages S
      (settle (e.andThen (fun u => (u, if (u.view? v.pair).map (·.state) = some v.state then [] else [.release v.pair])))) := by
  refine h.trans (settle_passages
    (e := e.andThen (fun u => (u, if (u.view? v.pair).map (·.state) = some v.state then [] else [.release v.pair])))
    (AllLocal.andThen hl ?_))
  simp only
  split
  · exact AllLocal.nil
  · simp [Report.isLocal]

/-- A state that has the passages of `s` has them too with the view of a peer pair brought into another state, set as R36 has it. -/
theorem SamePassages.viewTo {p : Nat} {v : View} {st : ViewState} (h : SamePassages s t) (hv : t.view? p = some v)
    (hp : v.peerRole.isSome = true) (hst : v.state ≠ st) (hne : st ≠ .ownWait) :
    SamePassages (s.viewAs p st none) (t.viewTo p st).1 := by
  have := State.viewTo_passages hv hp hst
  rw [if_neg hne] at this
  exact (h.viewAs p st none).trans this

theorem View.landed_frame (k : PassageKind) (v : View) :
    (v.landed k).pair = v.pair ∧ (v.landed k).slot = v.slot ∧ (v.landed k).band = v.band ∧ (v.landed k).other = v.other
      ∧ (v.landed k).state = v.state ∧ (v.landed k).cedeDue = v.cedeDue := by
  unfold View.landed; split <;> exact ⟨rfl, rfl, rfl, rfl, rfl, rfl⟩

theorem View.landed_peerRole (k : PassageKind) (v : View) : (v.landed k).peerRole = v.peerRole := by
  simp [View.peerRole, (View.landed_frame k v).2.2.2.1]

theorem State.ownClaim_local (s : State) (v : View) : AllLocal (s.ownClaim v).2 := by
  unfold State.ownClaim
  split
  all_goals first | exact s.viewTo_local _ _ | exact AllLocal.nil

/-- The views after the effect of the own CLAIM's echo (R39). -/
theorem State.ownClaim_passages {S : State} {v : View} (h : SamePassages S s) (hv : s.view? v.pair = some v)
    (hp : v.peerRole.isSome = true) :
    SamePassages
      (match v.state with
       | .opened | .pending => S.viewAs v.pair .own none
       | .peer => S.viewAs v.pair .queued none
       | .own | .ownWait | .queued | .barred | .conflict | .heldA | .heldB => S) (s.ownClaim v).1 := by
  unfold State.ownClaim
  cases hst : v.state <;> simp only
  case opened => exact h.viewTo hv hp (by simp [hst]) (by simp)
  case pending => exact h.viewTo hv hp (by simp [hst]) (by simp)
  case peer => exact h.viewTo hv hp (by simp [hst]) (by simp)
  all_goals exact h

theorem State.peerClaimed_local (s : State) (v : View) (st : Standing) : AllLocal (s.peerClaimed v st).2 := by
  unfold State.peerClaimed
  split
  · exact s.viewTo_local _ _
  · exact s.viewTo_local _ _
  · exact AllLocal.andThen (State.viewTo_local _ _ _) (by simp [Report.isLocal])
  all_goals exact AllLocal.nil

/-- The views after the effect of a peer's CLAIM (R40). -/
theorem State.peerClaimed_passages {S : State} {v : View} (h : SamePassages S s) (hv : s.view? v.pair = some v)
    (hp : v.peerRole.isSome = true) (st : Standing) :
    SamePassages
      (match v.state with
       | .opened | .pending => S.viewAs v.pair .peer none
       | .own => S.viewAs v.pair .ownWait (some st)
       | .ownWait | .peer | .queued | .barred | .conflict | .heldA | .heldB => S) (s.peerClaimed v st).1 := by
  unfold State.peerClaimed
  cases hst : v.state <;> simp only
  case opened => exact h.viewTo hv hp (by simp [hst]) (by simp)
  case pending => exact h.viewTo hv hp (by simp [hst]) (by simp)
  case own =>
    let s' := s.updView v.pair (fun w => { w with waiter := some st })
    have hv' : s'.view? v.pair = some { v with waiter := some st } := State.view?_updView_self hv (fun _ => rfl)
    have hto := State.viewTo_passages (st := .ownWait) hv' hp (by simp [hst])
    rw [if_pos rfl, State.viewAs_updView_waiter] at hto
    exact (h.viewAs v.pair .ownWait (some st)).trans hto
  all_goals exact h

/-- A CLAIM carries its pair and its standing (R159). -/
theorem payload_claim {f : Frame} (h : f.kind = kClaim) : payload f = .claim (f.byte 0) (standingOf (f.byte 1)) := by
  simp [payload, h, kClaim, kStop, kStake]

/-! ### What the echo of the own CLAIM leaves of the claim -/

/-- The view of a pair stands in a state with no CEDE due, its wait timer as R52 has it, and the own axis does not hold. -/
structure ClaimTaken (p : Nat) (sl : Slot) (b : Band) (st : ViewState) (t : State) : Prop where
  view : ∃ w, t.view? p = some w ∧ w.slot = sl ∧ w.band = b ∧ w.peerRole.isSome = true ∧ w.cedeDue = false ∧ w.state = st ∧
    w.waitTimer = if st = .queued then some Config.waitTime else none
  axis : (t.drive sl).axis ≠ .holding

/-- The entry of an active job on an axis for a pair has a status, and the axis has not left the pair's band on the far side. -/
structure EntryStands (p : Nat) (sl : Slot) (b : Band) (es : EntryStatus) (t : State) : Prop where
  kind : (t.kindAt sl).isSome = true
  active : (t.job sl).active = true
  entry : (t.job sl).entryOf p = some es
  near : passedBand (t.job sl).dir (staticInterval (t.drive sl).count (t.drive sl).span) b = false

/-- The reports that follow the echo of the own CLAIM of a pair. -/
def ClaimReport (p : Nat) (sl : Slot) (r : Report) : Prop :=
  r = .envelope sl ∨ r = .learnCheck sl ∨ r = .serve p ∨ r = .decide sl p ∨ r = .release p ∨ r = .evalYield p

/-! #### The updates those reports are made of -/

theorem Job.entryOf_mark (j : Job) (p : Nat) (g : EntryStatus → EntryStatus) : (j.mark p g).entryOf p = (j.entryOf p).map g := by
  unfold Job.entryOf Job.mark
  induction j.entries with
  | nil => rfl
  | cons e es ih => by_cases h : e.pair = p <;> simp_all

/-- An entry that an update of the list leaves alone. -/
theorem Job.entryOf_map {j : Job} {p : Nat} {es : EntryStatus} {g : Entry → Entry} (h : j.entryOf p = some es)
    (hpair : ∀ e, (g e).pair = e.pair) (hg : ∀ e, e.pair = p → e.status = es → g e = e) :
    Job.entryOf { j with entries := j.entries.map g } p = some es := by
  have hP : (fun e : Entry => e.pair == p) ∘ g = fun e => e.pair == p := by funext e; simp [hpair]
  unfold Job.entryOf at h ⊢
  obtain ⟨e, he, hs⟩ := Option.map_eq_some_iff.mp h
  have hpe : e.pair = p := by simpa using List.find?_some he
  rw [List.find?_map, hP, he, Option.map_some, hg e hpe hs, Option.map_some, hs]

/-- A band that an interval has not left on the far side in a direction of travel (R31). -/
theorem passedBand_eq_false (dir : Dir) (i : Interval) (b : Band) :
    passedBand dir i b = false ↔ match dir with | .up => i.low ≤ b.x2 | .down => (b.x1 : Int) ≤ i.high := by
  cases dir <;> simp [passedBand]

/-- The reach of an axis does not take its interval off a band that its count has not left (R19, R20, R31). -/
theorem State.occupiedAt_not_passed {sl : Slot} {b : Band} {dir : Dir} (hk : (s.kindAt sl).isSome = true) (hb : b.x1 ≤ 1000)
    (h : passedBand dir (staticInterval (s.drive sl).count (s.drive sl).span) b = false) :
    passedBand dir (s.occupiedAt sl) b = false := by
  obtain ⟨k, hk⟩ := Option.isSome_iff_exists.mp hk
  simp only [State.occupiedAt, hk]
  split
  · rename_i hr
    have hS : (0 : Int) < (s.drive sl).span := by
      have : (s.drive sl).span ≠ 0 := by simp [Drive.hasRange] at hr; exact hr.2
      omega
    generalize reachCount _ _ _ _ = cr
    generalize ((s.drive sl).count : Int) = c at h ⊢
    generalize ((s.drive sl).span : Int) = S at h hS ⊢
    rw [passedBand_eq_false] at h ⊢
    cases dir with
    | up =>
      have hle : min c cr * 1000 / S ≤ c * 1000 / S := Int.ediv_le_ediv hS (by omega)
      simp only [staticInterval, occupiedInterval, floorDiv, clampInt] at h ⊢
      omega
    | down =>
      have hle : -(max c cr * 1000) / S ≤ -(c * 1000) / S := Int.ediv_le_ediv hS (by omega)
      simp only [staticInterval, occupiedInterval, ceilDiv, clampInt] at h ⊢
      omega
  · rw [passedBand_eq_false]
    cases dir <;> simp only [wholeTravel] <;> omega

/-! #### Each report keeps what the echo has made -/

/-- The claim as the echo has left it: the view, and under `H` the entry. -/
def ClaimSettled (p : Nat) (sl : Slot) (b : Band) (st : ViewState) (H : Prop) (es : EntryStatus) (t : State) : Prop :=
  ClaimTaken p sl b st t ∧ (H → EntryStands p sl b es t)

/-- What is left alone of a drive record that does not hold: its place on the way, and that it does not hold. -/
def Drive.SamePlace (d e : Drive) : Prop := e.count = d.count ∧ e.span = d.span ∧ (d.axis ≠ .holding → e.axis ≠ .holding)

theorem Drive.SamePlace.refl (d : Drive) : d.SamePlace d := ⟨rfl, rfl, id⟩

section
variable {p : Nat} {sl : Slot} {b : Band} {st : ViewState} {H : Prop} {es : EntryStatus}

/-- The claim stays settled under an update that keeps the place of the axis, the record of the pair but for its frames and the STAKE
due, and the entry. -/
theorem ClaimSettled.keep (h : ClaimSettled p sl b st H es s) (hrole : t.role = s.role)
    (hview : ∀ w, s.view? p = some w → ∃ w', t.view? p = some w' ∧ w'.slot = w.slot ∧ w'.band = w.band ∧ w'.other = w.other ∧
      w'.cedeDue = w.cedeDue ∧ w'.state = w.state ∧ w'.waitTimer = w.waitTimer)
    (hdrive : (s.drive sl).SamePlace (t.drive sl))
    (hjob : H → EntryStands p sl b es s → (t.job sl).active = true ∧ (t.job sl).entryOf p = some es ∧ (t.job sl).dir = (s.job sl).dir) :
    ClaimSettled p sl b st H es t := by
  obtain ⟨⟨⟨w, hw, h1, h2, h3, h4, h5, h6⟩, ha⟩, he⟩ := h
  obtain ⟨hc, hs, hax⟩ := hdrive
  refine ⟨⟨?_, hax ha⟩, fun hH => ?_⟩
  · obtain ⟨w', hw', k1, k2, k3, k4, k5, k6⟩ := hview w hw
    exact ⟨w', hw', k1.trans h1, k2.trans h2, by simpa [View.peerRole, k3] using h3, k4.trans h4, k5.trans h5, k6.trans h6⟩
  · obtain ⟨j1, j2, j3⟩ := hjob hH (he hH)
    refine ⟨?_, j1, j2, ?_⟩
    · simpa [State.kindAt, hrole] using (he hH).kind
    · rw [j3, hc, hs]; exact (he hH).near

/-- The same where no view changes. -/
theorem ClaimSettled.keepViews (h : ClaimSettled p sl b st H es s) (hrole : t.role = s.role) (hview : t.view? p = s.view? p)
    (hdrive : (s.drive sl).SamePlace (t.drive sl))
    (hjob : H → EntryStands p sl b es s → (t.job sl).active = true ∧ (t.job sl).entryOf p = some es ∧ (t.job sl).dir = (s.job sl).dir) :
    ClaimSettled p sl b st H es t :=
  h.keep hrole (fun w hw => ⟨w, hview.trans hw, rfl, rfl, rfl, rfl, rfl, rfl⟩) hdrive hjob

/-- Taking the activity of the step keeps the claim settled. -/
theorem ClaimSettled.takeActivity (h : ClaimSettled p sl b st H es s) : ClaimSettled p sl b st H es s.takeActivity := by
  obtain ⟨hadu, _, _, hclu, _, hmvc, _⟩ := s.takeActivity_keeps
  have hj : s.takeActivity.job sl = s.job sl := by simp only [State.job, hmvc]
  exact h.keepViews s.takeActivity_around.role (State.view?_of_clu hclu p) (by simp only [State.drive, hadu]; exact .refl _)
    (fun _ e => by rw [hj]; exact ⟨e.active, e.entry, rfl⟩)

/-- An envelope handed to an axis that does not hold reports nothing, and leaves the axis in its place (R93). -/
theorem State.handEnvelope_not_holding (s : State) (sl : Slot) (h : (s.drive sl).axis ≠ .holding) :
    (s.handEnvelope sl).2 = [] ∧ (∀ q, (s.handEnvelope sl).1.view? q = s.view? q) ∧ (s.handEnvelope sl).1.mvc = s.mvc ∧
      (s.handEnvelope sl).1.role = s.role ∧ (s.drive sl).SamePlace ((s.handEnvelope sl).1.drive sl) := by
  have hb : (s.buildEnvelope sl).drive sl = s.drive sl := rfl
  simp only [State.handEnvelope, State.onEnvelope, hb]
  split
  · split
    · refine ⟨rfl, fun _ => rfl, rfl, rfl, ?_⟩
      simp [Drive.SamePlace]
    · refine ⟨rfl, fun _ => rfl, rfl, rfl, ?_⟩
      simp [Drive.SamePlace, State.driveOff, Drive.off, hb]
  · rename_i hax _
    exact absurd hax h
  · exact ⟨rfl, fun _ => rfl, rfl, rfl, .refl _⟩

theorem ClaimSettled.envelope (h : ClaimSettled p sl b st H es s) :
    ClaimSettled p sl b st H es (s.handEnvelope sl).1 ∧ (s.handEnvelope sl).2 = [] := by
  obtain ⟨hr, hv, hm, hro, hd⟩ := s.handEnvelope_not_holding sl h.1.axis
  have hj : (s.handEnvelope sl).1.job sl = s.job sl := by simp only [State.job, hm]
  exact ⟨h.keepViews hro (hv p) hd (fun _ e => by rw [hj]; exact ⟨e.active, e.entry, rfl⟩), hr⟩

theorem ClaimSettled.learnCheck (h : ClaimSettled p sl b st H es s) :
    ClaimSettled p sl b st H es (s.learnCheck sl).1 ∧ (s.learnCheck sl).2 = [] := by
  unfold State.learnCheck
  simp only
  split
  · refine ⟨h.keepViews rfl rfl ?_ (fun _ e => ?_), rfl⟩
    · simp [Drive.SamePlace]
    · simp only [State.job_setDrive, State.job_setJob, if_true]
      exact ⟨e.active, e.entry, trivial⟩
  · exact ⟨h, rfl⟩

/-- Where no CEDE is due and the view is not OPEN, serving what is due clears a STAKE due at most. -/
theorem ClaimSettled.serveDue (hst : st ≠ .opened) (h : ClaimSettled p sl b st H es s) : ClaimSettled p sl b st H es (s.serveDue p) := by
  obtain ⟨w, hw, h1, h2, h3, h4, h5, h6⟩ := h.1.view
  simp only [State.serveDue, hw, h4, h5, hst, false_and, if_false, Bool.false_eq_true]
  split
  · exact h
  · split
    · refine h.keep rfl (fun x hx => ?_) (.refl _) (fun _ e => ⟨e.active, e.entry, rfl⟩)
      exact ⟨{ x with stakeDue := false }, State.view?_updView_self hx (fun _ => rfl), rfl, rfl, rfl, rfl, rfl, rfl⟩
    · exact h

/-- Deciding an entry again finds the pair held or waited for already (R48). -/
theorem ClaimSettled.decide (hst : st = .own ∨ st = .queued) (hes : H → es ≠ .needed) (h : ClaimSettled p sl b st H es s) :
    ClaimSettled p sl b st H es (s.decideEntry sl p).1 ∧ ∀ x ∈ (s.decideEntry sl p).2, x = .learnCheck sl := by
  obtain ⟨w, hw, h1, h2, h3, h4, h5, h6⟩ := h.1.view
  unfold State.decideEntry
  simp only
  split
  · rename_i hn
    have hH : ¬H := fun hH => hes hH (by simpa [(h.2 hH).entry] using hn.2)
    have hset : ∀ j, ClaimSettled p sl b st H es (s.setJob sl j) := fun j =>
      ⟨⟨h.1.view, h.1.axis⟩, fun hH' => absurd hH' hH⟩
    obtain ⟨r, hr⟩ := Option.isSome_iff_exists.mp h3
    cases ho : w.other with
    | self sb bb => simp [View.peerRole, ho] at hr
    | peer pr k bb =>
      simp only [hw, ho, h5]
      split
      · exact ⟨h, by simp⟩
      · rcases hst with rfl | rfl
        · exact ⟨hset _, by simp⟩
        · exact ⟨hset _, by simp⟩
  · exact ⟨h, by simp⟩

/-- The mark that passes bands leaves the entry of a band that the axis has not left (R31). -/
theorem EntryStands.markPassed (h : EntryStands p sl b es s) (hb : b.x1 ≤ 1000)
    (hband : (s.view? p).bind (fun v => v.bandFor sl) = some b) :
    ((s.markPassed sl).job sl).active = true ∧ ((s.markPassed sl).job sl).entryOf p = some es ∧
      ((s.markPassed sl).job sl).dir = (s.job sl).dir := by
  unfold State.markPassed
  simp only
  split
  · simp only [State.job_setJob, if_true]
    refine ⟨h.active, Job.entryOf_map h.entry ?_ ?_, trivial⟩
    · intro e
      repeat' split
      all_goals rfl
    · intro e he _
      split
      · rw [he, hband]
        simp [State.occupiedAt_not_passed h.kind hb h.near]
      · rfl
  · exact ⟨h.active, h.entry, rfl⟩

@[simp] theorem State.markPassed_drive (s : State) (a c : Slot) : (s.markPassed a).drive c = s.drive c := by
  unfold State.markPassed; simp only; split <;> rfl

@[simp] theorem State.markPassed_role (s : State) (a : Slot) : (s.markPassed a).role = s.role := by
  unfold State.markPassed; simp only; split <;> rfl

theorem State.view?_handPassage (s : State) (p : Nat) (k : PassageKind) (pl : Payload) (q : Nat) :
    (s.handPassage p k pl).view? q = (s.view? q).map (fun v => if v.pair = p then { v with inFlight := some k } else v) := by
  rw [← State.view?_updView s p (fun v => { v with inFlight := some k }) (fun _ => rfl) q]
  unfold State.handPassage State.placePassage
  split <;> rfl

@[simp] theorem State.handPassage_rest (s : State) (p : Nat) (k : PassageKind) (pl : Payload) :
    (s.handPassage p k pl).mvc = s.mvc ∧ (s.handPassage p k pl).adu = s.adu ∧ (s.handPassage p k pl).role = s.role := by
  unfold State.handPassage State.placePassage
  split <;> exact ⟨rfl, rfl, rfl⟩

/-- The test of release on exit hands a CEDE over at most (R53). -/
theorem ClaimSettled.release (hb : H → b.x1 ≤ 1000) (h : ClaimSettled p sl b st H es s) :
    ClaimSettled p sl b st H es (s.release p).1 ∧ (s.release p).2 = [] := by
  obtain ⟨w, hw, h1, h2, h3, h4, h5, h6⟩ := h.1.view
  have hband : (s.view? p).bind (fun v => v.bandFor sl) = some b := by simp [hw, View.bandFor, h1, h2]
  have hmark : ClaimSettled p sl b st H es (s.markPassed sl) :=
    h.keepViews (by simp) (State.view?_of_clu (by simp) p) (by simp [Drive.SamePlace]) (fun hH e => e.markPassed (hb hH) hband)
  obtain ⟨r, hr⟩ := Option.isSome_iff_exists.mp h3
  cases ho : w.other with
  | self sb bb => simp [View.peerRole, ho] at hr
  | peer pr k bb =>
    have hslots : w.ownSlots = [sl] := by simp [View.ownSlots, ho, h1]
    simp only [State.release, hw, ho, hslots, List.foldl_cons, List.foldl_nil]
    split
    · refine ⟨?_, rfl⟩
      obtain ⟨hm, ha, hro⟩ := State.handPassage_rest (s.markPassed sl) p .cede (.cede p)
      have hd : ((s.markPassed sl).handCede p).drive sl = (s.markPassed sl).drive sl := by simp only [State.drive, State.handCede, ha]
      have hj : ((s.markPassed sl).handCede p).job sl = (s.markPassed sl).job sl := by simp only [State.job, State.handCede, hm]
      refine hmark.keep hro (fun x hx => ?_) (by rw [hd]; exact .refl _) (fun _ e => by rw [hj]; exact ⟨e.active, e.entry, rfl⟩)
      rw [State.handCede, State.view?_handPassage, hx, Option.map_some, if_pos (State.view?_some_pair hx)]
      exact ⟨_, rfl, rfl, rfl, rfl, rfl, rfl, rfl⟩
    · exact ⟨hmark, rfl⟩

/-- Every report that follows keeps the claim settled, and is answered by such reports alone. -/
theorem ClaimSettled.handle (hst : st = .own ∨ st = .queued) (hes : H → es ≠ .needed) (hb : H → b.x1 ≤ 1000) {r : Report}
    (hr : ClaimReport p sl r) (h : ClaimSettled p sl b st H es s) :
    ClaimSettled p sl b st H es (handle r s).1 ∧ ∀ x ∈ (handle r s).2, ClaimReport p sl x := by
  obtain ⟨w, hw, h1, _, h3, h4, h5, _⟩ := h.1.view
  rcases hr with rfl | rfl | rfl | rfl | rfl | rfl
  · obtain ⟨hk, hn⟩ := h.envelope
    exact ⟨hk, by simp [Machine.handle, hn]⟩
  · obtain ⟨hk, hn⟩ := h.learnCheck
    exact ⟨hk, by simp [Machine.handle, hn]⟩
  · simp only [Machine.handle, State.serve, hw, h4, h1]
    split
    · exact ⟨h, by simp⟩
    · exact ⟨h.serveDue (by rcases hst with rfl | rfl <;> decide), by simp [ClaimReport]⟩
  · obtain ⟨hk, hn⟩ := h.decide hst hes
    exact ⟨hk, fun x hx => .inr (.inl (hn x hx))⟩
  · obtain ⟨hk, hn⟩ := h.release hb
    exact ⟨hk, by simp [Machine.handle, hn]⟩
  · have hnone : w.waitedHolder = none := by
      obtain ⟨r, hr⟩ := Option.isSome_iff_exists.mp h3
      cases ho : w.other with
      | self sb bb => simp [View.peerRole, ho] at hr
      | peer pr k bb => rcases hst with rfl | rfl <;> simp [View.waitedHolder, ho, h5]
    simp only [Machine.handle, State.evalYield, hw, hnone]
    exact ⟨h, by simp⟩

end

/-! #### The echo itself -/

theorem View.goTo_cedeDue (v : View) (st : ViewState) : (v.goTo st).cedeDue = v.cedeDue := by unfold View.goTo; split <;> rfl

theorem View.ownSlots_peer {v : View} (h : v.peerRole.isSome = true) : v.ownSlots = [v.slot] := by
  cases ho : v.other with
  | peer r k b => simp [View.ownSlots, ho]
  | self sb b => simp [View.peerRole, ho] at h

theorem View.gives_peer {v : View} (h : v.peerRole.isSome = true) (sl : Slot) : v.gives sl = (v.state == .own || v.state == .ownWait) := by
  cases ho : v.other with
  | peer r k b => simp [View.gives, ho]
  | self sb b => simp [View.peerRole, ho] at h

/-- The job on the own axis of a peer pair whose view comes into another state (R49). -/
theorem State.viewTo_job {p : Nat} {v : View} {st : ViewState} (hv : s.view? p = some v) (hp : v.peerRole.isSome = true)
    (hst : v.state ≠ st) :
    (s.viewTo p st).1.job v.slot =
      if (v.goTo st).gives v.slot && (s.job v.slot).active then (s.job v.slot).mark p (v.goTo st).grant else s.job v.slot := by
  obtain ⟨h1, h2, _, h4, _⟩ := View.goTo_frame v st
  have hslots : (v.goTo st).ownSlots = [v.slot] := by
    rw [View.ownSlots_peer (by simpa [View.peerRole, h4] using hp), h2]
  have hjob : (s.moveView v st).job v.slot = s.job v.slot := by
    obtain ⟨es, hm⟩ := State.moveView_eq s v st
    rw [hm]; rfl
  simp only [State.viewTo, hv, hst, if_false, State.grantEntries, hslots, List.foldl_cons, List.foldl_nil, hjob, h1,
    State.view?_some_pair hv]
  split
  · simp
  · exact hjob

/-- The reports of a peer pair's view that comes into another state (R21, R130). -/
theorem State.viewTo_reports {p : Nat} {v : View} {st : ViewState} (hv : s.view? p = some v) (hp : v.peerRole.isSome = true)
    (hst : v.state ≠ st) : (s.viewTo p st).2 = [.envelope v.slot, .learnCheck v.slot] := by
  simp [State.viewTo, hv, hst, View.ownSlots_peer hp]

/-- The echo brings the view to OWN or QUEUED; an entry CLAIMED becomes HELD with OWN and stays CLAIMED with QUEUED (R39, R49, R52). -/
theorem State.viewTo_claimSettled {p : Nat} {v : View} {st : ViewState} (hv : s.view? p = some v) (hp : v.peerRole.isSome = true)
    (hst : v.state ≠ st) (hs : st = .own ∨ st = .queued) (hc : v.cedeDue = false) (ha : (s.drive v.slot).axis ≠ .holding) :
    ClaimSettled p v.slot v.band st (EntryStands p v.slot v.band .claimed s) (if st = .own then .held else .claimed)
      (s.viewTo p st).1 := by
  obtain ⟨_, h2, h3, h4, h5⟩ := View.goTo_frame v st
  obtain ⟨vs, es, js, heq⟩ := State.viewTo_eq s p st
  have hdrive : (s.viewTo p st).1.drive v.slot = s.drive v.slot := by rw [heq]; rfl
  have hrole : (s.viewTo p st).1.role = s.role := by rw [heq]
  have hp' : (v.goTo st).peerRole.isSome = true := by simpa [View.peerRole, h4] using hp
  refine ⟨⟨⟨v.goTo st, State.view?_viewTo_self hv hst, h2, h3, hp', (v.goTo_cedeDue st).trans hc, h5, (View.goTo_waits hp hst).2⟩,
    by rw [hdrive]; exact ha⟩, fun e => ?_⟩
  have hj := State.viewTo_job hv hp hst
  rw [View.gives_peer hp' v.slot, h5, e.active] at hj
  refine ⟨by simpa [State.kindAt, hrole] using e.kind, ?_, ?_, ?_⟩
  · rw [hj]; split <;> exact e.active
  · rcases hs with rfl | rfl
    · simp [hj, Job.entryOf_mark, e.entry, View.grant, grantStatus]
    · rw [hj]; exact e.entry
  · rw [hdrive, hj]
    split <;> exact e.near

/-- The step of an echo that has brought the view to OWN or QUEUED keeps the claim settled to its end. -/
theorem settle_claimSettled {p : Nat} {v : View} {st : ViewState} (hv : s.view? p = some v) (hp : v.peerRole.isSome = true)
    (hst : v.state ≠ st) (hs : st = .own ∨ st = .queued) (hc : v.cedeDue = false) (ha : (s.drive v.slot).axis ≠ .holding)
    {H : Prop} (hH : H → EntryStands p v.slot v.band .claimed s ∧ v.band.x1 ≤ 1000) :
    ClaimSettled p v.slot v.band st H (if st = .own then .held else .claimed) (settle ((s.viewTo p st).thenServe p)) := by
  have h0 := State.viewTo_claimSettled hv hp hst hs hc ha
  have h1 : ClaimSettled p v.slot v.band st H (if st = .own then .held else .claimed) (s.viewTo p st).1 :=
    ⟨h0.1, fun h => h0.2 (hH h).1⟩
  have hes : H → (if st = .own then EntryStatus.held else .claimed) ≠ .needed := fun _ => by split <;> simp
  refine ClaimSettled.takeActivity (cascade_keeps (J := ClaimSettled p v.slot v.band st H _) (R := ClaimReport p v.slot)
    (fun r t hr ht => ht.handle hs hes (fun h => (hH h).2) hr) _ _ _ _ (h1.serveDue (by rcases hs with rfl | rfl <;> decide)) ?_ (by simp))
  intro x hx
  simp only [Effect.thenServe, State.viewTo_reports hv hp hst, List.cons_append, List.nil_append, List.mem_cons, List.not_mem_nil,
    or_false] at hx
  rcases hx with rfl | rfl | rfl <;> simp [ClaimReport]

/-! ### Yield evaluations -/

theorem passageFrame_decline (own : Role) (p : Nat) (r : Reason) :
    passageFrame kDecline own p (reasonCode r) = encode (roleCode own) (.decline p (some r)) := by
  simp [passageFrame, encode, identOf, Nat.mul_comm]

/-- A frame handed over is sent as the statements have it (R38, R152). -/
theorem State.handPassage_sends (s : State) (p : Nat) (k : PassageKind) (pl : Payload) :
    s.Sends (s.handPassage p k pl) p k (encode s.sender pl) := by
  refine ⟨State.handPassage_hands s p k pl, ?_⟩
  unfold State.handPassage State.placePassage
  split <;> exact ⟨rfl, rfl, rfl, rfl, rfl, rfl⟩

/-- The mark that passes bands changes the entries of a job, and nothing else of it. -/
theorem State.markPassed_eq (s : State) (sl : Slot) :
    ∃ es, s.markPassed sl = s.setJob sl { s.job sl with entries := es } ∨ s.markPassed sl = s := by
  unfold State.markPassed
  simp only
  split
  · exact ⟨_, .inl rfl⟩
  · exact ⟨[], .inr rfl⟩

theorem State.markPassed_inactive {sl : Slot} (h : (s.job sl).active = false) : s.markPassed sl = s := by
  simp [State.markPassed, h]

/-- What a yield evaluation reads is not changed by the mark that passes bands. -/
theorem State.markPassed_reads (s : State) (sl : Slot) :
    (s.markPassed sl).station = s.station ∧ ((s.markPassed sl).job sl).active = (s.job sl).active ∧
      ((s.markPassed sl).job sl).origin = (s.job sl).origin ∧ (s.markPassed sl).queuedAt sl = s.queuedAt sl ∧
      (s.markPassed sl).bus = s.bus ∧ (∀ v x, (s.markPassed sl).inside v x = s.inside v x) := by
  obtain ⟨es, h | h⟩ := s.markPassed_eq sl <;> rw [h]
  · refine ⟨rfl, ?_, ?_, rfl, rfl, fun _ _ => rfl⟩ <;> simp
  · exact ⟨rfl, rfl, rfl, rfl, rfl, fun _ _ => rfl⟩

/-- A yield evaluation of a peer pair with a claim waiting, in RUN (R55 to R57). -/
theorem State.evalYield_peer {p : Nat} {v : View} (hv : s.view? p = some v) (hp : v.peerRole.isSome = true) (hst : v.state = .ownWait)
    (hrun : s.station = .run) :
    s.evalYield p =
      if v.yieldAsked = true then
        if (s.job v.slot).active = true ∧ (s.job v.slot).origin = .yield p then (s.markPassed v.slot, [])
        else if s.ownInside v = true then (s.markPassed v.slot).decline v .chain
        else (s.markPassed v.slot, [.release p])
      else if (s.job v.slot).active = true ∨ (s.queuedAt v.slot).isSome = true then (s.markPassed v.slot, [])
      else if s.ownInside v = false then (s.markPassed v.slot, [.release p])
      else
        match (s.markPassed v.slot).declineReason v v.slot with
        | some r => (s.markPassed v.slot).decline v r
        | none => ((s.markPassed v.slot).updView p (fun w => { w with yieldAsked := true }), [.startYield p v.slot]) := by
  obtain ⟨h1, h2, h3, h4, _, h6⟩ := s.markPassed_reads v.slot
  have hholder : v.waitedHolder = some v.slot := by
    cases ho : v.other with
    | peer r k b => simp [View.waitedHolder, ho, hst]
    | self sb b => simp [View.peerRole, ho] at hp
  simp only [State.evalYield, hv, hholder, h1, hrun, h2, h3, h6, State.busy, h4, Bool.or_eq_true, State.ownInside, ne_eq,
    not_true_eq_false, if_false]
  rfl

/-- The first reason for which a waiting claim is declined (R56). -/
theorem State.declineReason_eq (s : State) (v : View) (sl : Slot) :
    s.declineReason v sl =
      if v.waiter = some .jog ∨ v.waiter = some .yield then some .standing
      else if s.mvc.pins.get sl = true then some .pinned
      else if s.liu.occupancy.stable = true then some .occupied
      else if ¬s.Parked then some .vehicle
      else if s.smon.level = .critical ∨ s.smon.level = .unknown then some .supply
      else if (s.drive sl).axis = .fault ∨ (s.drive sl).hasRange = false then some .fault
      else none := by
  have hpark : (!s.stillPark) = true ↔ ¬s.Parked := by
    rw [Bool.not_eq_true', ← Bool.not_eq_true, State.stillPark, Gateway.stillPark]
    simp only [Bool.and_eq_true, beq_iff_eq, and_assoc, State.Parked]
  simp only [State.declineReason, State.isOccupied, hpark, State.supplyBars, Bool.or_eq_true, beq_iff_eq]

/-- A waiting claim of a peer pair declined: a DECLINE is sent where a frame may be handed, and otherwise nothing changes (R38, R56). -/
theorem State.decline_peer {p : Nat} {v : View} {own : Role} (hp : v.peerRole.isSome = true) (hpair : v.pair = p)
    (hrun : s.station = .run) (hrole : s.role = some own) (r : Reason) :
    (s.decline v r).2 = [] ∧
      if v.inFlight = none ∧ s.bus.busOff = none then
        s.Sends (s.decline v r).1 p .decline (passageFrame kDecline own p (reasonCode r))
      else (s.decline v r).1 = s := by
  have hmay : s.mayHand v = true ↔ v.inFlight = none ∧ s.bus.busOff = none := by simp [State.mayHand, hrun]
  have hsend : s.sender = roleCode own := by simp [State.sender, hrole]
  cases ho : v.other with
  | self sb b => simp [View.peerRole, ho] at hp
  | peer q k b =>
    simp only [State.decline, ho, hmay]
    split
    · refine ⟨rfl, ?_⟩
      rw [passageFrame_decline, ← hsend, State.handDecline, hpair]
      exact s.handPassage_sends p .decline (.decline p (some r))
    · exact ⟨rfl, rfl⟩

/-- The clauses of O10 on the evaluation of a yield. -/
theorem State.evalYield_clauses {p : Nat} {v : View} {own : Role} (hv : s.view? p = some v) (hp : v.peerRole.isSome = true)
    (hst : v.state = .ownWait) (hrun : s.station = .run) (hrole : s.role = some own) :
    let u := s.markPassed v.slot
    let declines (r : Reason) : Prop :=
      (s.evalYield p).2 = [] ∧
        if v.inFlight = none ∧ s.bus.busOff = none then
          u.Sends (s.evalYield p).1 p .decline (passageFrame kDecline own p (reasonCode r))
        else (s.evalYield p).1 = u
    (v.yieldAsked = false → (s.job v.slot).active = true ∨ (s.queuedAt v.slot).isSome = true → s.evalYield p = (u, [])) ∧
    (v.yieldAsked = false → (s.job v.slot).active = false → s.queuedAt v.slot = none →
      (s.ownInside v = false → s.evalYield p = (s, [.release p])) ∧
      (s.ownInside v = true → ∀ r, s.declineReason v v.slot = some r → declines r) ∧
      (s.ownInside v = true → s.declineReason v v.slot = none →
        s.evalYield p = (s.updView p (fun w => { w with yieldAsked := true }), [.startYield p v.slot]))) ∧
    (v.yieldAsked = true →
      ((s.job v.slot).active = true → (s.job v.slot).origin = .yield p → s.evalYield p = (u, [])) ∧
      ((s.job v.slot).active = false →
        (s.ownInside v = true → declines .chain) ∧ (s.ownInside v = false → s.evalYield p = (s, [.release p])))) := by
  have heval := State.evalYield_peer hv hp hst hrun
  have hdec : ∀ r, (s.job v.slot).active = false → s.evalYield p = s.decline v r → _ := fun r ha he => by
    have := State.decline_peer hp (State.view?_some_pair hv) hrun hrole r
    rw [← he] at this
    exact this
  refine ⟨fun hy hb => ?_, fun hy ha hq => ⟨fun hi => ?_, fun hi r hr => ?_, fun hi hr => ?_⟩,
    fun hy => ⟨fun ha ho => ?_, fun ha => ⟨fun hi => ?_, fun hi => ?_⟩⟩⟩
  · simp [heval, hy, hb]
  · simp [heval, hy, ha, hq, hi, State.markPassed_inactive]
  · rw [State.markPassed_inactive ha] at heval ⊢
    exact hdec r ha (by simp [heval, hy, ha, hq, hi, hr])
  · simp [heval, hy, ha, hq, hi, hr, State.markPassed_inactive]
  · simp [heval, hy, ha, ho]
  · rw [State.markPassed_inactive ha] at heval ⊢
    exact hdec .chain ha (by simp [heval, hy, ha, hi])
  · simp [heval, hy, ha, hi, State.markPassed_inactive]

/-! ### Crossing lists and the start of a yield -/

theorem insertBand_perm (dir : Dir) (x : Nat × Band) (l : List (Nat × Band)) : (insertBand dir x l).Perm (x :: l) := by
  induction l with
  | nil => exact .refl _
  | cons y ys ih =>
    unfold insertBand
    split
    · exact .refl _
    · exact (ih.cons y).trans (.swap x y ys)

/-- The bands that a job crosses are put in order, none added and none lost (R30). -/
theorem crossingOrder_perm (dir : Dir) (c t S : Int) (bands : List (Nat × Band)) :
    (crossingOrder dir c t S bands).Perm (bands.filter (fun x => crosses c t S x.2)) := by
  unfold crossingOrder
  induction bands.filter (fun x => crosses c t S x.2) with
  | nil => exact .refl _
  | cons x xs ih => exact (insertBand_perm dir x _).trans (ih.cons x)

theorem State.mem_bandsOf {p : Nat} {v : View} {sl : Slot} {b : Band} (hv : s.view? p = some v) (hb : v.bandFor sl = some b) :
    (p, b) ∈ s.bandsOf sl := by
  refine List.mem_filterMap.mpr ⟨v, ?_, by simp [hb, State.view?_some_pair hv]⟩
  exact List.mem_filter.mpr ⟨List.mem_of_find?_eq_some hv, by simp [hb]⟩

/-- A pair whose band the move crosses is on its list, on an axis of at most four pairs (R30). -/
theorem State.mem_crossingList {p : Nat} {sl : Slot} {b : Band} {dir : Dir} {x : Int} (hm : (p, b) ∈ s.bandsOf sl)
    (hc : crosses (s.drive sl).count x (s.drive sl).span b = true) (hl : (s.pairsOf sl).length ≤ 4) :
    ⟨p, .needed⟩ ∈ (s.crossingList sl dir x).1 := by
  have hperm := crossingOrder_perm dir (s.drive sl).count x (s.drive sl).span (s.bandsOf sl)
  have hlen : (crossingOrder dir (s.drive sl).count x (s.drive sl).span (s.bandsOf sl)).length ≤ 4 := by
    rw [hperm.length_eq]
    exact ((List.length_filter_le _ _).trans (List.length_filterMap_le _ _)).trans hl
  have hmem : (p, b) ∈ crossingOrder dir (s.drive sl).count x (s.drive sl).span (s.bandsOf sl) :=
    hperm.mem_iff.mpr (List.mem_filter.mpr ⟨hm, hc⟩)
  have hone : (s.crossingList sl dir x).1 =
      ((crossingOrder dir (s.drive sl).count x (s.drive sl).span (s.bandsOf sl)).take Config.crossingMax).map
        (fun y => (⟨y.1, .needed⟩ : Entry)) := by
    unfold State.crossingList
    simp only
    split <;> rfl
  rw [hone, List.take_of_length_le (show _ ≤ Config.crossingMax from hlen)]
  exact List.mem_map.mpr ⟨_, hmem, rfl⟩

theorem crosses_of_start {c t S : Int} {b : Band} (h : (staticInterval c S).meets b = true) : crosses c t S b = true := by
  simp [crosses, h]

/-- What it is to cross a band, in the manual's terms (R30; notes/assumptions/23.md). -/
theorem crosses_iff (c t S : Int) (b : Band) :
    crosses c t S b = true ↔
      (-((-(min c t * 1000)) / S) ≤ (b.x2 : Int) ∧ (b.x1 : Int) ≤ max c t * 1000 / S) ∨
        ∃ x, (x = c ∨ x = t) ∧ x * 1000 / S ≤ (b.x2 : Int) ∧ (b.x1 : Int) ≤ -((-(x * 1000)) / S) := by
  have hmeets : ∀ x : Int, (staticInterval x S).meets b = true ↔ x * 1000 / S ≤ (b.x2 : Int) ∧ (b.x1 : Int) ≤ -((-(x * 1000)) / S) :=
    fun x => by simp [Interval.meets, staticInterval, floorDiv, ceilDiv, and_comm]
  have hway : decide (ceilDiv (min c t * 1000) S ≤ b.x2 ∧ (b.x1 : Int) ≤ floorDiv (max c t * 1000) S) = true ↔
      -((-(min c t * 1000)) / S) ≤ (b.x2 : Int) ∧ (b.x1 : Int) ≤ max c t * 1000 / S := decide_eq_true_iff
  rw [crosses, Bool.or_eq_true, Bool.or_eq_true, hmeets, hmeets, hway, or_assoc]
  refine or_congr Iff.rfl ⟨?_, ?_⟩
  · rintro (h | h)
    · exact ⟨c, .inl rfl, h⟩
    · exact ⟨t, .inr rfl, h⟩
  · rintro ⟨x, rfl | rfl, h⟩
    · exact .inl h
    · exact .inr h

/-- A yield asked for on an axis with a job, or with one about to start, is evaluated again (R57). -/
theorem State.startYield_busy {p : Nat} {sl : Slot} (h : (s.job sl).active = true ∨ (s.queuedAt sl).isSome = true) :
    s.startYield p sl = (s, [.evalYield p]) := by
  have : s.busy sl = true := by simpa [State.busy] using h
  simp [State.startYield, this]

/-- A yield on an axis with no job starts its move to the target of R29 (R57, R112, R128). -/
theorem State.startYield_idle {p : Nat} {v : View} {sl : Slot} {k : Kind} {b : Band} {x : Int} (hv : s.view? p = some v)
    (hb : v.bandFor sl = some b) (hk : s.kindAt sl = some k) (hx : yieldTarget k b (s.drive sl).count (s.drive sl).span = some x)
    (ha : (s.job sl).active = false) (hq : s.queuedAt sl = none) :
    s.startYield p sl = s.startMove sl { Job.free with origin := .yield p, speed := .code 1, standing := .yield } x := by
  have : s.busy sl = false := by simp [State.busy, ha, hq]
  simp [State.startYield, this, hk, hv, hb, hx, yieldCode]

/-! ### The statement -/

/-- Settles O10: the echo of the own CLAIM keeps the claim settled through the reports that follow, a peer's CLAIM leaves what R40 sets,
and an evaluation or a start of a yield is one answer of its block. -/
theorem claimFramesMoveView : Obligations.ClaimFramesMoveView := by
  refine ⟨?_, ?_, ?_, ?_, crosses_iff⟩
  · intro s n f rest v h hv hp hk
    have hpair := State.view?_some_pair hv
    obtain ⟨l1, l2, l3, l4, l5, l6⟩ := v.landed_frame .claim
    have hp' : (v.landed .claim).peerRole.isSome = true := by rw [View.landed_peerRole]; exact hp
    let u := (s.frameTaken n).updView v.pair (View.landed .claim)
    have hu : u.view? v.pair = some (v.landed .claim) :=
      State.view?_updView_self (by rw [State.frameTaken_view?, hpair]; exact hv) (fun w => (w.landed_frame .claim).1)
    have hx : exec (.ownClaimEcho n) s = .next (settle ((u.ownClaim (v.landed .claim)).thenServe v.pair)) :=
      congrArg (fun e => Host.Outcome.next (settle e)) (h.takeEcho hv hp n .claim State.ownClaim)
    have hpass : SamePassages (s.leaving rest) u := (State.frameTaken_passages h.head n).trans (State.landed_passages _ _ _)
    refine ⟨_, hx, ?_, fun hc ha => ?_⟩
    · have := State.ownClaim_passages (v := v.landed .claim) hpass (by rw [l1]; exact hu) hp'
      rw [l5, l1] at this
      exact settle_thenServe_passages this (State.ownClaim_local _ _) v.pair
    · have hent : (s.job v.slot).active = true → (s.job v.slot).entryOf v.pair = some .claimed →
          passedBand (s.job v.slot).dir (staticInterval (s.drive v.slot).count (s.drive v.slot).span) v.band = false →
          EntryStands v.pair (v.landed .claim).slot (v.landed .claim).band .claimed u := fun h1 h2 h3 => by
        rw [l2, l3]
        have hj : u.job v.slot = s.job v.slot := s.frameTaken_job n v.slot
        have hd : u.drive v.slot = s.drive v.slot := s.frameTaken_drive n v.slot
        exact ⟨by simpa [u, State.kindAt] using hk, by rw [hj]; exact h1, by rw [hj]; exact h2, by rw [hj, hd]; exact h3⟩
      let H : Prop := EntryStands v.pair (v.landed .claim).slot (v.landed .claim).band .claimed u ∧ (v.landed .claim).band.x1 ≤ 1000
      have hset : ∀ st : ViewState, st = .own ∨ st = .queued → v.state ≠ st →
          u.ownClaim (v.landed .claim) = u.viewTo v.pair st →
          ClaimSettled v.pair v.slot v.band st H (if st = .own then .held else .claimed)
            (settle ((u.ownClaim (v.landed .claim)).thenServe v.pair)) := fun st hst hne he => by
        rw [he, ← l2, ← l3]
        exact settle_claimSettled hu hp' (by rw [l5]; exact hne) hst (l6.trans hc)
          (by rw [l2, show u.drive v.slot = s.drive v.slot from s.frameTaken_drive n v.slot]; exact ha) (H := H) id
      have hown : v.state = .opened ∨ v.state = .pending → _ := fun ho => hset .own (.inl rfl)
        (by rcases ho with ho | ho <;> simp [ho]) (by rcases ho with ho | ho <;> simp [State.ownClaim, l5, l1, ho])
      have hqueued : v.state = .peer → _ := fun ho => hset .queued (.inr rfl) (by simp [ho]) (by simp [State.ownClaim, l5, l1, ho])
      refine ⟨fun ho => ?_, fun h1 h2 h3 h4 => ⟨fun ho => ?_, fun ho => ?_⟩⟩
      · obtain ⟨w, hw, _, _, _, _, hws, hwt⟩ := (hqueued ho).1.view
        exact ⟨w, hw, hws, hwt⟩
      · exact ((hown ho).2 ⟨hent h1 h2 h3, by rw [l3]; exact h4⟩).entry
      · exact ((hqueued ho).2 ⟨hent h1 h2 h3, by rw [l3]; exact h4⟩).entry
  · intro s n f rest v h hv hp
    have hpair := State.view?_some_pair hv
    have hps : v.peerRole.isSome = true := by cases hr : v.peerRole <;> simp [hr] at hp ⊢
    have hx : exec (.peerClaim n) s = .next (settle ((s.withSense n).takePeer kClaim (fun t v f =>
        match payload f with
        | .claim _ (some st) => t.peerClaimed v st
        | _ => (t, [])))) := rfl
    rw [h.takePeer hv hp, payload_claim h.kind] at hx
    have hpass : SamePassages (s.leaving rest) (s.frameTaken n) := State.frameTaken_passages h.head n
    have hu : (s.frameTaken n).view? v.pair = some v := by rw [State.frameTaken_view?, hpair]; exact hv
    refine ⟨_, hx, ?_⟩
    cases hst : standingOf (f.byte 1) with
    | none => exact ⟨settle_release_passages hpass AllLocal.nil v, by simp⟩
    | some st =>
      have hview := State.peerClaimed_passages hpass hu hps st
      have hl := State.peerClaimed_local (s.frameTaken n) v st
      refine ⟨?_, fun st' hs' ho => ?_⟩
      · cases hvs : v.state <;> (rw [hvs] at hview; simpa only [hvs] using settle_release_passages hview hl v)
      · obtain rfl : st = st' := Option.some.inj hs'
        rw [ho] at hview
        have hend := settle_release_passages hview hl v
        have hv' : ((s.leaving rest).viewAs v.pair .ownWait (some st)).view? v.pair = _ :=
          State.view?_updView_self (show (s.leaving rest).view? v.pair = some v by rw [hpair]; exact hv) (fun _ => rfl)
        obtain ⟨w, hw, _, _, _, hs1, hs2, _⟩ := hend.views _ _ hv' hps
        exact ⟨w, hw, hs1, hs2 rfl⟩
  · intro s p v own hv hp hst hrun hrole
    have := State.evalYield_clauses hv hp hst hrun hrole
    simp only [State.declineReason_eq] at this
    exact this
  · intro s p v sl k b x hv hb hk hx
    refine ⟨fun hi hl => ?_, State.startYield_busy, fun ha hq => ?_⟩
    · exact State.mem_crossingList (State.mem_bandsOf hv hb) (crosses_of_start hi) hl
    · rw [State.startYield_idle hv hb hk hx ha hq]
      rfl

end Sys2Proof.Machine
end

section
/-! PROOFS. Rules of the move controller that its statements share: a frame placed in the outgoing list, a value set again in a slot, and
a job that takes the place of what is on an idle axis. -/

namespace Sys2Proof.Machine

variable {s t : State}

/-! ### Values of the slots -/

theorem PerSlot.ext_get {α : Type} {x y : PerSlot α} (h : ∀ sl : Slot, x.get sl = y.get sl) : x = y := by
  have h0 : x.s0 = y.s0 := h .s0
  have h1 : x.s1 = y.s1 := h .s1
  have h2 : x.s2 = y.s2 := h .s2
  cases x; cases y; simp_all

@[simp] theorem PerSlot.set_set {α : Type} (x : PerSlot α) (sl : Slot) (a b : α) : (x.set sl a).set sl b = x.set sl b := by
  cases sl <;> rfl

@[simp] theorem PerSlot.set_get_self {α : Type} (x : PerSlot α) (sl : Slot) : x.set sl (x.get sl) = x := by cases sl <;> rfl

@[simp] theorem State.setQueued_setQueued (s : State) (sl : Slot) (a b : Option QueuedStart) :
    (s.setQueued sl a).setQueued sl b = s.setQueued sl b := by simp [State.setQueued]

/-- What waits for an axis, set as it is. -/
theorem State.setQueued_self {sl : Slot} {q : Option QueuedStart} (h : s.queuedAt sl = q) : s.setQueued sl q = s := by
  rw [← h, State.setQueued, State.queuedAt, PerSlot.set_get_self]

@[simp] theorem State.setJob_setJob (s : State) (sl : Slot) (a b : Job) : (s.setJob sl a).setJob sl b = s.setJob sl b := by
  simp [State.setJob]

theorem State.pins_setPin (s : State) (sl : Slot) : (s.setPin sl false).mvc.pins.get sl = false :=
  (PerSlot.get_set _ sl sl false).trans (if_pos rfl)

/-! ### Frames placed in the outgoing list -/

/-- Handing the frames of the outgoing list over keeps them, in order, behind those of the general slots (R111). -/
theorem State.drainOutgoing_frames (n : Nat) (s : State) :
    (State.drainOutgoing n s).bus.general ++ (State.drainOutgoing n s).mvc.outgoing = s.bus.general ++ s.mvc.outgoing := by
  induction n generalizing s with
  | zero => rfl
  | succ n ih =>
    unfold State.drainOutgoing
    split
    · rfl
    · rename_i f fs hf
      split
      · rw [ih, hf, List.append_assoc]; rfl
      · rfl

/-- Handing frames over changes the list and the general slots alone. -/
theorem State.drainOutgoing_eq (n : Nat) (s : State) :
    ∃ fs gs, State.drainOutgoing n s = { s with mvc := { s.mvc with outgoing := fs }, bus := { s.bus with general := gs } } := by
  induction n generalizing s with
  | zero => exact ⟨_, _, rfl⟩
  | succ n ih =>
    unfold State.drainOutgoing
    split
    · exact ⟨_, _, rfl⟩
    · rename_i f fs _
      split
      · obtain ⟨a, b, h⟩ := ih { s with mvc := { s.mvc with outgoing := fs }, bus := { s.bus with general := s.bus.general ++ [f] } }
        exact ⟨a, b, h⟩
      · exact ⟨_, _, rfl⟩

theorem State.placeOutgoing_eq (s : State) (f : Frame) :
    ∃ fs gs, s.placeOutgoing f = { s with mvc := { s.mvc with outgoing := fs }, bus := { s.bus with general := gs } } := by
  obtain ⟨a, b, h⟩ := State.drainOutgoing_eq Config.outgoingCapacity s
  obtain ⟨c, d, k⟩ := State.drainOutgoing_eq Config.outgoingCapacity
    { State.drainOutgoing Config.outgoingCapacity s with mvc := (State.drainOutgoing Config.outgoingCapacity s).mvc.append f }
  refine ⟨c, d, ?_⟩
  simp only [State.placeOutgoing]
  rw [k, h]
  rfl

theorem Mvc.mem_append (m : Mvc) (f : Frame) : f ∈ (m.append f).outgoing := by
  unfold Mvc.append
  simp only
  split
  · rename_i h
    rw [List.drop_append_of_le_length (by simp [Config.outgoingCapacity] at h; omega)]
    simp
  · simp

/-- A frame that the MVC has built stands in a general slot or in the list (R111). -/
theorem State.mem_placeOutgoing (s : State) (f : Frame) : f ∈ (s.placeOutgoing f).bus.general ++ (s.placeOutgoing f).mvc.outgoing := by
  rw [State.placeOutgoing, State.drainOutgoing_frames]
  exact List.mem_append_right _ (Mvc.mem_append _ f)

/-- With nothing before it and a general slot free, a frame that the MVC has built takes the slot at once (R111, R152). -/
theorem State.placeOutgoing_free {f : Frame} (hb : s.busOpen = true) (hw : s.clu.waiting = []) (ho : s.mvc.outgoing = [])
    (hg : s.bus.general.length < 5) : f ∈ (s.placeOutgoing f).bus.general := by
  have hroom : s.bus.hasRoom = true := decide_eq_true hg
  have h0 : State.drainOutgoing Config.outgoingCapacity s = s := by simp [State.drainOutgoing, Config.outgoingCapacity, ho]
  have hb' : ∀ m : Mvc, State.busOpen { s with mvc := m } = true := fun _ => hb
  rw [State.placeOutgoing, h0]
  simp [State.drainOutgoing, Config.outgoingCapacity, Mvc.append, ho, hb', hw, hroom]

/-! ### A job started on an idle axis -/

/-- A job in its record with its pin cleared and its run handed over (R112). -/
def State.startedWith (s : State) (sl : Slot) (j : Job) : State :=
  ((s.setPin sl false).setJob sl { j with handed := true }).setDrive sl { s.drive sl with handed := some j.theRun }

section
variable (s : State) (sl x : Slot) (j : Job)

@[simp] theorem State.startedWith_active : (s.startedWith sl j).mvc.active = s.mvc.active := rfl
@[simp] theorem State.startedWith_job : (s.startedWith sl j).job x = if sl = x then { j with handed := true } else s.job x :=
  State.job_setJob (s.setPin sl false) sl x _
@[simp] theorem State.startedWith_drive :
    (s.startedWith sl j).drive x = if sl = x then { s.drive sl with handed := some j.theRun } else s.drive x :=
  State.drive_setDrive _ sl x _
@[simp] theorem State.startedWith_pins : (s.startedWith sl j).mvc.pins.get x = if sl = x then false else s.mvc.pins.get x :=
  PerSlot.get_set _ sl x false

end

section
variable {sl : Slot} {j : Job}

theorem State.endRequest_inactive {o : JobOutcome} (h : (s.job sl).active = false) : s.endRequest sl o = (s, []) := by
  simp [State.endRequest, h]

/-- A job that has just started, and has no learn's origin, has its run handed (R112). -/
theorem State.handRun_started (s : State) (h : j.active = true ∧ j.handed = false ∧ j.cause = none ∧ j.origin ≠ .learn) :
    ((s.setPin sl false).setJob sl j).handRun sl = (s.startedWith sl j, []) := by
  have hjob : ((s.setPin sl false).setJob sl j).job sl = j := by rw [State.job_setJob, if_pos rfl]
  rw [State.handRun, hjob, if_pos h, State.setJob_setJob]
  rfl

/-- On an axis with no job and nothing waiting, a job that takes the place of the old one starts at once (R109, R112, R116). -/
theorem Takes.replaceJob {q : QueuedOrigin} {o : JobOutcome} (hj : (s.job sl).active = false) (hq : s.queuedAt sl = none)
    (hstart : (s.setQueued sl (some ⟨q, none⟩)).startQueued sl = ((s.setPin sl false).setJob sl j, [.handRun sl]))
    (h : j.active = true ∧ j.handed = false ∧ j.cause = none ∧ j.origin ≠ .learn) :
    Takes 4 [.replaceJob sl q o] s (s.startedWith sl j) := by
  have hrep : handle (.replaceJob sl q o) s = (s.setQueued sl (some ⟨q, none⟩), [.endRequest sl o] ++ [.startQueued sl]) := by
    simp [handle, State.replaceJob, hq]
  have hend : Takes 1 [.endRequest sl o] (s.setQueued sl (some ⟨q, none⟩)) (s.setQueued sl (some ⟨q, none⟩)) :=
    .skip rfl (State.endRequest_inactive hj)
  have hhand : Takes 1 [.handRun sl] ((s.setPin sl false).setJob sl j) (s.startedWith sl j) :=
    .answer rfl (by rw [show handle (.handRun sl) _ = _ from s.handRun_started h]; exact .nil _)
  have hque : Takes 2 [.startQueued sl] (s.setQueued sl (some ⟨q, none⟩)) (s.startedWith sl j) :=
    .answer rfl (by rw [show handle (.startQueued sl) _ = _ from hstart]; exact hhand)
  exact .answer rfl (by rw [hrep]; exact hend.append hque)

/-- What starts of a scene's job that has waited, where no cause has ended it (R116, R118). -/
theorem State.startQueued_scene {id p : Nat} {x : Int} {ref : Bool} (hj : (s.job sl).active = false)
    (hq : s.queuedAt sl = some ⟨.scene id p x ref, none⟩) : s.startQueued sl = (s.setQueued sl none).startScene sl id p x ref := by
  simp [State.startQueued, hq, hj]

/-- What starts of a jog that has waited. -/
theorem State.startQueued_jog {dir : Dir} (hj : (s.job sl).active = false) (hq : s.queuedAt sl = some ⟨.jog dir, none⟩) :
    s.startQueued sl = (s.setQueued sl none).startJog sl dir := by
  simp [State.startQueued, hq, hj]

/-- A move that crosses no band has an empty crossing list (R30). -/
theorem State.crossingList_clear {dir : Dir} {x : Int}
    (h : ∀ v ∈ s.pairsOf sl, ∀ b, v.bandFor sl = some b → crosses (s.drive sl).count x (s.drive sl).span b = false) :
    s.crossingList sl dir x = ([], x) := by
  have hnil : crossingOrder dir (s.drive sl).count x (s.drive sl).span (s.bandsOf sl) = [] := by
    refine List.Perm.nil_eq (List.Perm.symm ?_) |>.symm
    refine (crossingOrder_perm dir _ x _ (s.bandsOf sl)).trans ?_
    rw [List.filter_eq_nil_iff.mpr]
    intro y hy
    obtain ⟨v, hv, hb⟩ := List.mem_filterMap.mp hy
    obtain ⟨b, hbf, rfl⟩ := Option.map_eq_some_iff.mp hb
    simp [h v hv b hbf]
  simp [State.crossingList, hnil]

/-- A move that crosses no band starts with nothing to claim (R112). -/
theorem State.startMove_clear {x : Int} (j : Job)
    (h : ∀ v ∈ s.pairsOf sl, ∀ b, v.bandFor sl = some b → crosses (s.drive sl).count x (s.drive sl).span b = false) :
    s.startMove sl j x =
      ((s.setPin sl false).setJob sl
        { j.begin with
          present := .main, requested := some x, target := some x
          dir := if ((s.drive sl).count : Int) < x then .up else .down, entries := [] }, [.handRun sl]) := by
  simp [State.startMove, State.crossingList_clear h]

end

end Sys2Proof.Machine
end

section
/-! PROOFS. O26: a SCENE starts a move or a REFERENCE run on each slot it gives a target, and supersedes. -/

namespace Sys2Proof.Machine

variable {s : State} {sl : Slot}

/-! ### What waits for an axis, under supersession (R116) -/

theorem QueuedStart.keepJog_of_scene {q : QueuedStart} (h : ∀ d, q.origin ≠ .jog d) : q.keepJog = none := by
  obtain ⟨o, c⟩ := q
  cases o with
  | jog d => exact absurd rfl (h d)
  | scene => rfl
  | learn => rfl

theorem QueuedStart.keepJog_of_jog {q : QueuedStart} {d : Dir} (h : q.origin = .jog d) : q.keepJog = some q := by
  simp [QueuedStart.keepJog, h]

theorem QueuedStart.keepScene_of_scene {q : QueuedStart} (h : ∀ d, q.origin ≠ .jog d) : q.keepScene = some q := by
  obtain ⟨o, c⟩ := q
  cases o with
  | jog d => exact absurd rfl (h d)
  | scene => rfl
  | learn => rfl

theorem QueuedStart.keepScene_of_jog {q : QueuedStart} {d : Dir} (h : q.origin = .jog d) : q.keepScene = none := by
  simp [QueuedStart.keepScene, h]

theorem State.neverStarted_scene {q : QueuedStart} (hq : s.queuedAt sl = some q) (h : ∀ d, q.origin ≠ .jog d) :
    s.neverStarted sl = some (q.cause.getD .superseded) := by
  obtain ⟨o, c⟩ := q
  cases o with
  | jog d => exact absurd rfl (h d)
  | scene => simp [State.neverStarted, hq]
  | learn => simp [State.neverStarted, hq]

theorem State.neverStarted_none (h : ¬ ∃ q, s.queuedAt sl = some q ∧ ∀ d, q.origin ≠ .jog d) : s.neverStarted sl = none := by
  cases hq : s.queuedAt sl with
  | none => simp [State.neverStarted, hq]
  | some q =>
    obtain ⟨o, c⟩ := q
    cases o with
    | jog d => simp [State.neverStarted, hq]
    | scene => exact absurd ⟨_, hq, by simp⟩ h
    | learn => exact absurd ⟨_, hq, by simp⟩ h

theorem State.keepJog_queued (h : ¬ ∃ q, s.queuedAt sl = some q ∧ ∀ d, q.origin ≠ .jog d) :
    (s.queuedAt sl).bind QueuedStart.keepJog = s.queuedAt sl := by
  cases hq : s.queuedAt sl with
  | none => rfl
  | some q =>
    by_cases hj : ∃ d, q.origin = .jog d
    · obtain ⟨d, hd⟩ := hj
      exact QueuedStart.keepJog_of_jog hd
    · exact absurd ⟨q, hq, by simpa using hj⟩ h

/-! ### Supersession -/

/-- The station after supersession, but for the RESULT of an entry with nothing pending (R116). -/
def State.superseded (s : State) (e : SceneEntry) : State :=
  { s with
    mvc := { s.mvc with
      active := none
      ending := if (s.supersededEntry e).complete then s.mvc.ending else s.mvc.ending ++ [s.supersededEntry e]
      jobs := PerSlot.tabulate (fun sl => (s.job sl).toEnding)
      queued := PerSlot.tabulate (fun sl => (s.queuedAt sl).bind QueuedStart.keepJog) } }

theorem mem_allSlots (sl : Slot) : sl ∈ allSlots := by cases sl <;> decide

theorem SceneEntry.complete_iff (e : SceneEntry) : e.complete = true ↔ ∀ sl : Slot, e.slots.get sl ≠ .pending := by
  simp [SceneEntry.complete, mem_allSlots]

theorem State.supersede_active {e : SceneEntry} (h : s.mvc.active = some e) :
    s.supersede =
      (if (s.supersededEntry e).complete then (s.superseded e).sendResult (s.supersededEntry e) else s.superseded e,
        [.endRequests (allSlots.filter (fun sl => (s.job sl).active && (s.job sl).member == .active)) .superseded]) := by
  simp only [State.supersede, h]
  rfl

theorem State.supersede_none (h : s.mvc.active = none) : s.supersede = (s, []) := by simp [State.supersede, h]

theorem State.supersededEntry_get (s : State) (e : SceneEntry) (sl : Slot) :
    (s.supersededEntry e).slots.get sl = ((s.neverStarted sl).map SlotOutcome.ended).getD (e.slots.get sl) := by
  simp only [State.supersededEntry, PerSlot.get_tabulate]
  cases s.neverStarted sl <;> rfl

/-- Building the RESULT of the superseded entry changes the outgoing list and the general slots alone. -/
theorem State.supersede_eq {e : SceneEntry} (h : s.mvc.active = some e) :
    ∃ fs gs, s.supersede.1 =
      { s.superseded e with
        mvc := { (s.superseded e).mvc with outgoing := fs }, bus := { (s.superseded e).bus with general := gs } } := by
  rw [State.supersede_active h]
  dsimp only
  split
  · exact State.placeOutgoing_eq _ _
  · exact ⟨_, _, rfl⟩

/-- What supersession does to one slot of the superseded scene or learn, its job and what waits for its axis (R113, R116). -/
theorem State.supersede_slot {e : SceneEntry} (h : s.mvc.active = some e) (sl : Slot) :
    let t := s.supersede.1
    let unstarted (sl : Slot) : Prop := ∃ q, s.queuedAt sl = some q ∧ ∀ d, q.origin ≠ .jog d
    (∀ q, s.queuedAt sl = some q → (∀ d, q.origin ≠ .jog d) →
      (s.supersededEntry e).slots.get sl = .ended (q.cause.getD .superseded)) ∧
    (¬unstarted sl → (s.supersededEntry e).slots.get sl = e.slots.get sl) ∧
    (asksEnd s.supersede.2 sl .superseded ↔ (s.job sl).active = true ∧ (s.job sl).member = .active) ∧
    t.job sl = { s.job sl with member := if (s.job sl).member = .active then .ending else (s.job sl).member } ∧
    (unstarted sl → t.queuedAt sl = none) ∧ (¬unstarted sl → t.queuedAt sl = s.queuedAt sl) := by
  intro t unstarted
  obtain ⟨fs, gs, ht⟩ := State.supersede_eq h
  have hqueued : t.queuedAt sl = (s.queuedAt sl).bind QueuedStart.keepJog := by
    simp [t, ht, State.queuedAt, State.superseded]
  refine ⟨fun q hq hd => ?_, fun hu => ?_, ?_, ?_, ?_, fun hu => ?_⟩
  · simp [State.supersededEntry_get, State.neverStarted_scene hq hd]
  · simp [State.supersededEntry_get, State.neverStarted_none hu]
  · simp [State.supersede_active h, asksEnd, mem_allSlots]
  · simp [t, ht, State.job, State.superseded, Job.toEnding]
  · rintro ⟨q, hq, hd⟩
    simp [hqueued, hq, QueuedStart.keepJog_of_scene hd]
  · rw [hqueued, State.keepJog_queued hu]

theorem State.supersede_pending {e : SceneEntry} (h : s.mvc.active = some e)
    (hp : ∃ sl : Slot, (s.supersededEntry e).slots.get sl = .pending) :
    s.supersede.1.mvc.ending = s.mvc.ending ++ [s.supersededEntry e] ∧ s.supersede.1.mvc.outgoing = s.mvc.outgoing ∧
      s.supersede.1.bus = s.bus := by
  have hc : (s.supersededEntry e).complete = false := by
    rw [← Bool.not_eq_true, SceneEntry.complete_iff]
    push Not
    exact hp
  simp [State.supersede_active h, State.superseded, hc]

theorem State.supersede_complete {e : SceneEntry} (h : s.mvc.active = some e)
    (hp : ∀ sl : Slot, (s.supersededEntry e).slots.get sl ≠ .pending) :
    s.supersede.1.mvc.ending = s.mvc.ending ∧
      encode s.sender (.result (s.supersededEntry e).result) ∈ s.supersede.1.bus.general ++ s.supersede.1.mvc.outgoing := by
  have hc := (SceneEntry.complete_iff _).mpr hp
  have ht : s.supersede.1 = (s.superseded e).sendResult (s.supersededEntry e) := by simp [State.supersede_active h, hc]
  refine ⟨?_, ?_⟩
  · obtain ⟨fs, gs, heq⟩ := State.supersede_eq h
    simp [heq, State.superseded, hc]
  · rw [ht]
    exact State.mem_placeOutgoing _ _

/-! ### The loading of one slot (R118) -/

/-- The target that a scene gives the axis in a slot of a role, with the kind of the axis (R14). -/
def targetOf (r : Role) (id : Nat) (sl : Slot) : Option (Kind × Nat) :=
  (kindOf r sl).bind (fun k => (sceneTarget id r k).map (k, ·))

theorem targetOf_eq_some {r : Role} {id p : Nat} {k : Kind} :
    targetOf r id sl = some (k, p) ↔ kindOf r sl = some k ∧ sceneTarget id r k = some p := by
  simp only [targetOf, Option.bind_eq_some_iff, Option.map_eq_some_iff, Prod.mk.injEq]
  constructor
  · rintro ⟨_, hk, _, hp, rfl, rfl⟩
    exact ⟨hk, hp⟩
  · rintro ⟨hk, hp⟩
    exact ⟨k, hk, p, hp, rfl, rfl⟩

theorem targetOf_eq_none {r : Role} {id : Nat} : targetOf r id sl = none ↔ (kindOf r sl).bind (sceneTarget id r) = none := by
  simp [targetOf]

theorem State.slotTarget_eq {r : Role} (hr : s.role = some r) (sl : Slot) (id : Nat) : s.slotTarget sl id = targetOf r id sl := by
  simp only [State.slotTarget, State.kindAt, hr, targetOf]
  cases kindOf r sl <;> rfl

theorem seatedKind_iff {k : Kind} : seatedKind k = true ↔ k ≠ .slide := by cases k <;> decide

/-- A refused target drops the jog that waits for the axis, and keeps all else that waits for it (R116, R118). -/
theorem State.refuseSlot_spec (s : State) (sl : Slot) (o : JobOutcome) :
    (s.refuseSlot sl o).2 = [.endRequest sl .superseded, .sceneOutcome sl .active o] ∧
      (s.refuseSlot sl o).1 = s.setQueued sl ((s.refuseSlot sl o).1.queuedAt sl) ∧
      ((∀ q, s.queuedAt sl = some q → ∀ d, q.origin ≠ .jog d) → (s.refuseSlot sl o).1 = s) ∧
      ∀ q d, s.queuedAt sl = some q → q.origin = .jog d → (s.refuseSlot sl o).1.queuedAt sl = none := by
  refine ⟨rfl, ?_, fun h => ?_, fun q d hq hd => ?_⟩
  · simp [State.refuseSlot, State.setQueued, State.queuedAt]
  · refine State.setQueued_self ?_
    cases hq : s.queuedAt sl with
    | none => rfl
    | some q => exact (QueuedStart.keepScene_of_scene (h q hq)).symm
  · simp [State.refuseSlot, State.setQueued, State.queuedAt, show s.mvc.queued.get sl = some q from hq,
      QueuedStart.keepScene_of_jog hd]

section
variable {r : Role} {k : Kind} {id p : Nat}

theorem State.loadSlot_none (hr : s.role = some r) (h : targetOf r id sl = none) :
    s.loadSlot sl id = (s, [.sceneOutcome sl .active .noJob]) := by
  simp [State.loadSlot, State.slotTarget_eq hr, h]

theorem State.loadSlot_occupied (hr : s.role = some r) (h : targetOf r id sl = some (k, p))
    (hb : s.isOccupied = true ∧ k ≠ .slide ∧ (params k).seated < p) : s.loadSlot sl id = s.refuseSlot sl .occupied := by
  simp [State.loadSlot, State.slotTarget_eq hr, h, hb, seatedKind_iff]

theorem State.loadSlot_disabled (hr : s.role = some r) (h : targetOf r id sl = some (k, p))
    (hb : ¬(s.isOccupied = true ∧ k ≠ .slide ∧ (params k).seated < p)) (hd : (s.drive sl).disabled = true) :
    s.loadSlot sl id = s.refuseSlot sl .disabled := by
  simp only [State.loadSlot, State.slotTarget_eq hr, h, seatedKind_iff, if_neg hb, hd, if_true]

theorem State.loadSlot_starts (hr : s.role = some r) (h : targetOf r id sl = some (k, p))
    (hb : ¬(s.isOccupied = true ∧ k ≠ .slide ∧ (params k).seated < p)) (hd : (s.drive sl).disabled = false) :
    s.loadSlot sl id =
      (s, [.replaceJob sl (.scene id p (sceneCount k p (s.drive sl).span) (!(s.drive sl).hasRange)) .superseded]) := by
  simp [State.loadSlot, State.slotTarget_eq hr, h, seatedKind_iff, if_neg hb, hd]

end

/-! ### The start of a scene's job (R112, R118, R119) -/

/-- The record of a scene's job at its start, before its run is chosen (R112). -/
def sceneStart (id p : Nat) : Job :=
  { Job.free with origin := .scene id, permille := some p, speed := .code sceneCode, standing := .scene, member := .active }

theorem State.startScene_reference {id p : Nat} {x : Int} {ref : Bool} (hk : (s.kindAt sl).isSome = true)
    (hd : (s.drive sl).disabled = false) (h : ref = true ∨ (s.drive sl).hasRange = false) :
    s.startScene sl id p x ref = s.startReference sl (sceneStart id p) x := by
  obtain ⟨k, hk⟩ := Option.isSome_iff_exists.mp hk
  simp [State.startScene, hk, hd, h, sceneStart]

theorem State.startScene_move {id p : Nat} {x : Int} (hk : (s.kindAt sl).isSome = true) (hd : (s.drive sl).disabled = false)
    (h : (s.drive sl).hasRange = true) : s.startScene sl id p x false = s.startMove sl (sceneStart id p) x := by
  obtain ⟨k, hk⟩ := Option.isSome_iff_exists.mp hk
  simp [State.startScene, hk, hd, h, sceneStart]

theorem State.startReference_job (s : State) (sl : Slot) (j : Job) (x : Int) :
    (s.startReference sl j x).1.job sl =
      { j.begin with
        present := .reference, requested := some x, target := some x, dir := .down, speed := .creep, entries := [] } :=
  (State.job_setJob _ sl sl _).trans (if_pos rfl)

theorem State.startMove_job (s : State) (sl : Slot) (j : Job) (x : Int) :
    (s.startMove sl j x).1.job sl =
      { j.begin with
        present := .main, requested := some x
        target := some (s.crossingList sl (if ((s.drive sl).count : Int) < x then .up else .down) x).2
        dir := if ((s.drive sl).count : Int) < x then .up else .down
        entries := (s.crossingList sl (if ((s.drive sl).count : Int) < x then .up else .down) x).1 } :=
  (State.job_setJob _ sl sl _).trans (if_pos rfl)

/-- What a job that starts a scene's move leaves in its record, and on its axis (R112). -/
theorem State.startQueued_sceneStart {id p : Nat} {x : Int} {ref : Bool} (hk : (s.kindAt sl).isSome = true)
    (hj : (s.job sl).active = false) (hq : s.queuedAt sl = some ⟨.scene id p x ref, none⟩) (hd : (s.drive sl).disabled = false) :
    let t := (s.startQueued sl).1
    t.queuedAt sl = none ∧ (t.job sl).active = true ∧ (t.job sl).origin = .scene id ∧ (t.job sl).permille = some p ∧
      (t.job sl).requested = some x ∧ t.mvc.pins.get sl = false ∧ t.adu = s.adu ∧
      Report.handRun sl ∈ (s.startQueued sl).2 ∧
      (ref = true → (t.job sl).present = .reference ∧ (t.job sl).dir = .down ∧ (t.job sl).speed = .creep ∧ (t.job sl).entries = []) ∧
      (ref = false → (s.drive sl).hasRange = true → (t.job sl).present = .main ∧ (t.job sl).speed = .code 2) := by
  have hfree : (s.setQueued sl none).queuedAt sl = none := by simp
  rw [State.startQueued_scene hj hq]
  by_cases href : ref = true ∨ (s.drive sl).hasRange = false
  · rw [State.startScene_reference (s := s.setQueued sl none) hk hd href]
    have hjob := (s.setQueued sl none).startReference_job sl (sceneStart id p) x
    refine ⟨hfree, by rw [hjob]; rfl, by rw [hjob]; rfl, by rw [hjob]; rfl, by rw [hjob], s.pins_setPin sl, rfl, .head _,
      fun _ => ?_, ?_⟩
    · rw [hjob]
      exact ⟨rfl, rfl, rfl, rfl⟩
    · rintro rfl hr
      simp [hr] at href
  · obtain ⟨rfl, hr⟩ : ref = false ∧ (s.drive sl).hasRange = true := by simpa using href
    rw [State.startScene_move (s := s.setQueued sl none) hk hd hr]
    have hjob := (s.setQueued sl none).startMove_job sl (sceneStart id p) x
    refine ⟨hfree, by rw [hjob]; rfl, by rw [hjob]; rfl, by rw [hjob]; rfl, by rw [hjob], s.pins_setPin sl, rfl,
      by simp [State.startMove], by simp, fun _ _ => ?_⟩
    rw [hjob]
    exact ⟨rfl, rfl⟩

/-! ### A scene loaded on idle axes (R117, R118) -/

/-- The run that a scene starts on an axis: its move, or a REFERENCE run where the axis has no position (R118, R119). -/
def sceneRun (d : Drive) (x : Int) : Run :=
  if d.hasRange = true then
    { origin := .scene, dir := if (d.count : Int) < x then .up else .down, target := some x, speed := .code 2, secondLeg := false
      pulsesLeft := none }
  else
    { origin := .reference, dir := .down, target := none, speed := .creep, secondLeg := false, pulsesLeft := none }

/-- The record of a scene's job right after its start on an axis whose way crosses no band (R112, R118). -/
def sceneJob (d : Drive) (id p : Nat) (x : Int) : Job :=
  { (sceneStart id p).begin with
    present := if d.hasRange = true then .main else .reference, requested := some x, target := some x
    dir := (sceneRun d x).dir, speed := (sceneRun d x).speed, entries := [] }

theorem sceneJob_theRun (d : Drive) (id p : Nat) (x : Int) : (sceneJob d id p x).theRun = sceneRun d x := by
  cases h : d.hasRange <;> simp [sceneJob, Job.theRun, sceneRun, h, Job.begin, sceneStart]

/-- What the start of a slot of a scene needs: its axis idle, not DISABLED, and with no band on its way (R109, R118). -/
structure State.ReadyFor (s : State) (r : Role) (id : Nat) (sl : Slot) : Prop where
  idle : (s.job sl).active = false
  free : s.queuedAt sl = none
  enabled : ∀ k p, targetOf r id sl = some (k, p) → (s.drive sl).disabled = false
  clear : ∀ k p, targetOf r id sl = some (k, p) → (s.drive sl).hasRange = true →
    ∀ v ∈ s.pairsOf sl, ∀ b, v.bandFor sl = some b →
      crosses (s.drive sl).count (sceneCount k p (s.drive sl).span) (s.drive sl).span b = false

/-- The scene's job that waits for an idle axis starts at once, with its move or with a REFERENCE run (R118). -/
theorem State.startQueued_sceneJob {id p : Nat} {x : Int} (hk : (s.kindAt sl).isSome = true) (hj : (s.job sl).active = false)
    (hd : (s.drive sl).disabled = false)
    (hx : (s.drive sl).hasRange = true → ∀ v ∈ s.pairsOf sl, ∀ b, v.bandFor sl = some b →
      crosses (s.drive sl).count x (s.drive sl).span b = false) (hq : s.queuedAt sl = none) :
    (s.setQueued sl (some ⟨.scene id p x (!(s.drive sl).hasRange), none⟩)).startQueued sl =
      ((s.setPin sl false).setJob sl (sceneJob (s.drive sl) id p x), [.handRun sl]) := by
  rw [State.startQueued_scene (s := s.setQueued sl _) hj ((State.queuedAt_setQueued s sl sl _).trans (if_pos rfl)),
    State.setQueued_setQueued, State.setQueued_self hq]
  cases hr : (s.drive sl).hasRange with
  | false =>
    rw [Bool.not_false, State.startScene_reference hk hd (.inl rfl)]
    simp [State.startReference, sceneJob, sceneRun, hr]
  | true =>
    rw [Bool.not_true, State.startScene_move hk hd hr, State.startMove_clear _ (hx hr)]
    simp [sceneJob, sceneRun, hr]
    rfl

/-- One slot of a scene loaded: its job started, or its outcome NO_JOB in the scene record (R118). -/
def State.slotLoaded (s : State) (r : Role) (id : Nat) (sl : Slot) : State :=
  match targetOf r id sl with
  | some (k, p) => s.startedWith sl (sceneJob (s.drive sl) id p (sceneCount k p (s.drive sl).span))
  | none =>
    s.setScene (s.mvc.active.map (fun e => { e with slots := e.slots.set sl (.ended .noJob) })) s.mvc.ending

/-- NO_JOB entered for a slot, while another slot of the scene is pending (R113). -/
theorem State.enterOutcome_open {e : SceneEntry} {o : JobOutcome} {y : Slot} (he : s.mvc.active = some e) (hy : y ≠ sl)
    (hp : e.slots.get y = .pending) :
    s.enterOutcome sl .active o =
      (s.setScene (s.mvc.active.map (fun e => { e with slots := e.slots.set sl (.ended o) })) s.mvc.ending, []) := by
  have hc : SceneEntry.complete { e with slots := e.slots.set sl (.ended o) } = false := by
    rw [← Bool.not_eq_true, SceneEntry.complete_iff]
    intro h
    exact h y (by simp [PerSlot.get_set, hy.symm, hp])
  simp [State.enterOutcome, he, hc]

section
variable {r : Role} {id : Nat} (x : Slot)

theorem State.slotLoaded_target {k : Kind} {p : Nat} (h : targetOf r id sl = some (k, p)) :
    s.slotLoaded r id sl = s.startedWith sl (sceneJob (s.drive sl) id p (sceneCount k p (s.drive sl).span)) := by
  simp [State.slotLoaded, h]

theorem State.slotLoaded_none (h : targetOf r id sl = none) :
    s.slotLoaded r id sl = s.setScene (s.mvc.active.map (fun e => { e with slots := e.slots.set sl (.ended .noJob) })) s.mvc.ending := by
  simp [State.slotLoaded, h]

@[simp] theorem State.slotLoaded_role : (s.slotLoaded r id sl).role = s.role := by unfold State.slotLoaded; split <;> rfl
@[simp] theorem State.slotLoaded_clu : (s.slotLoaded r id sl).clu = s.clu := by unfold State.slotLoaded; split <;> rfl
@[simp] theorem State.slotLoaded_liu : (s.slotLoaded r id sl).liu = s.liu := by unfold State.slotLoaded; split <;> rfl
@[simp] theorem State.slotLoaded_ending : (s.slotLoaded r id sl).mvc.ending = s.mvc.ending := by unfold State.slotLoaded; split <;> rfl
@[simp] theorem State.slotLoaded_queuedAt : (s.slotLoaded r id sl).queuedAt x = s.queuedAt x := by unfold State.slotLoaded; split <;> rfl

theorem State.slotLoaded_active :
    (s.slotLoaded r id sl).mvc.active =
      s.mvc.active.map (fun e =>
        { e with slots := e.slots.set sl (if targetOf r id sl = none then .ended .noJob else e.slots.get sl) }) := by
  cases h : targetOf r id sl with
  | none => simp [State.slotLoaded_none h, State.setScene]
  | some kp => simp [State.slotLoaded_target h]

/-- Two states alike in the job, the pin and the drive of one slot. -/
structure SameSlot (s t : State) (sl : Slot) : Prop where
  job : t.job sl = s.job sl
  pins : t.mvc.pins.get sl = s.mvc.pins.get sl
  drive : t.drive sl = s.drive sl

theorem SameSlot.trans {t u : State} (h : SameSlot s t sl) (k : SameSlot t u sl) : SameSlot s u sl :=
  ⟨k.job.trans h.job, k.pins.trans h.pins, k.drive.trans h.drive⟩

theorem State.takeActivity_sameSlot (s : State) (sl : Slot) : SameSlot s s.takeActivity sl := by
  obtain ⟨hadu, -, -, -, -, hmvc, -⟩ := s.takeActivity_keeps
  exact ⟨by rw [State.job, hmvc]; rfl, by rw [hmvc], by rw [State.drive, hadu]; rfl⟩

theorem State.slotLoaded_other (h : sl ≠ x) : SameSlot s (s.slotLoaded r id sl) x := by
  cases ht : targetOf r id sl with
  | none => rw [State.slotLoaded_none ht]; exact ⟨rfl, rfl, rfl⟩
  | some kp => rw [State.slotLoaded_target ht]; exact ⟨by simp [h], by simp [h], by simp [h]⟩

/-- What a scene has made of one slot: its job, its pin and its drive (R112, R118). -/
def State.LoadedAt (s t : State) (r : Role) (id : Nat) (sl : Slot) : Prop :=
  match targetOf r id sl with
  | some (k, p) =>
    t.job sl = { sceneJob (s.drive sl) id p (sceneCount k p (s.drive sl).span) with handed := true } ∧
      t.mvc.pins.get sl = false ∧
      t.drive sl = { s.drive sl with handed := some (sceneRun (s.drive sl) (sceneCount k p (s.drive sl).span)) }
  | none => SameSlot s t sl

theorem State.slotLoaded_own : s.LoadedAt (s.slotLoaded r id sl) r id sl := by
  unfold State.LoadedAt
  cases ht : targetOf r id sl with
  | none => rw [State.slotLoaded_none ht]; exact ⟨rfl, rfl, rfl⟩
  | some kp => simp [State.slotLoaded_target ht, sceneJob_theRun]

theorem State.LoadedAt.after {t u : State} (h : s.LoadedAt t r id sl) (g : SameSlot t u sl) : s.LoadedAt u r id sl := by
  unfold State.LoadedAt at *
  split at h
  · rwa [g.job, g.pins, g.drive]
  · exact h.trans g

theorem State.LoadedAt.before {t u : State} (h : t.LoadedAt u r id sl) (g : SameSlot s t sl) : s.LoadedAt u r id sl := by
  unfold State.LoadedAt at *
  split at h
  · rwa [g.drive] at h
  · exact g.trans h

/-- The loading of the slots of a list, one after another (R118). -/
def State.slotsLoaded (s : State) (r : Role) (id : Nat) (l : List Slot) : State := l.foldl (fun t sl => t.slotLoaded r id sl) s

theorem State.slotsLoaded_other (l : List Slot) (s : State) (h : sl ∉ l) : SameSlot s (s.slotsLoaded r id l) sl := by
  induction l generalizing s with
  | nil => exact ⟨rfl, rfl, rfl⟩
  | cons y l ih =>
    obtain ⟨hy, hl⟩ : sl ≠ y ∧ sl ∉ l := by simpa using h
    exact (State.slotLoaded_other sl hy.symm).trans (ih (s.slotLoaded r id y) hl)

/-- What the loading of several slots has made of each of them (R118). -/
theorem State.slotsLoaded_at (l : List Slot) (hl : l.Nodup) (s : State) (h : sl ∈ l) : s.LoadedAt (s.slotsLoaded r id l) r id sl := by
  induction l generalizing s with
  | nil => simp at h
  | cons y l ih =>
    obtain ⟨hy, hl⟩ := List.nodup_cons.mp hl
    rcases List.mem_cons.mp h with rfl | h
    · exact State.slotLoaded_own.after (State.slotsLoaded_other l _ hy)
    · exact (ih hl (s.slotLoaded r id y) h).before (State.slotLoaded_other sl (fun e => hy (e ▸ h)))

end

section
variable {r : Role} {id : Nat}

theorem State.ReadyFor.of_same {t : State} (h : s.ReadyFor r id sl) (hjob : t.job sl = s.job sl) (hq : t.queuedAt sl = s.queuedAt sl)
    (hd : t.drive sl = s.drive sl) (hclu : t.clu = s.clu) : t.ReadyFor r id sl := by
  have hpairs : t.pairsOf sl = s.pairsOf sl := by rw [State.pairsOf, hclu]; rfl
  exact ⟨by rw [hjob]; exact h.idle, by rw [hq]; exact h.free, by rw [hd]; exact h.enabled, by rw [hd, hpairs]; exact h.clear⟩

theorem State.ReadyFor.slotLoaded {x : Slot} (h : s.ReadyFor r id x) (hx : sl ≠ x) : (s.slotLoaded r id sl).ReadyFor r id x :=
  have hother := State.slotLoaded_other (r := r) (id := id) x hx
  h.of_same hother.job (by simp) hother.drive (by simp)

/-- The loading of one slot taken to its end, while a slot that has a target is pending (R118). -/
theorem Takes.loadSlot (hr : s.role = some r) (ho : s.isOccupied = false) (h : s.ReadyFor r id sl)
    (he : ∃ e y, s.mvc.active = some e ∧ targetOf r id y ≠ none ∧ e.slots.get y = .pending) :
    ∃ k ≤ 5, Takes k [.loadSlot sl id] s (s.slotLoaded r id sl) := by
  cases ht : targetOf r id sl with
  | none =>
    obtain ⟨e, y, ha, hy, hp⟩ := he
    have hne : y ≠ sl := fun h => hy (h ▸ ht)
    refine ⟨2, by omega, .answer rfl ?_⟩
    rw [show handle (.loadSlot sl id) s = _ from State.loadSlot_none hr ht, State.slotLoaded_none ht]
    refine .answer rfl ?_
    rw [show handle (.sceneOutcome sl .active .noJob) s = _ from State.enterOutcome_open ha hne hp]
    exact .nil _
  | some kp =>
    obtain ⟨k, p⟩ := kp
    have hk : (s.kindAt sl).isSome = true := by simp [State.kindAt, hr, (targetOf_eq_some.mp ht).1]
    have hstart := State.startQueued_sceneJob (id := id) (p := p) hk h.idle (h.enabled k p ht) (h.clear k p ht) h.free
    refine ⟨5, le_rfl, .answer rfl ?_⟩
    rw [show handle (.loadSlot sl id) s = _ from State.loadSlot_starts hr ht (by simp [ho]) (h.enabled k p ht), State.slotLoaded_target ht]
    exact .replaceJob h.idle h.free hstart ⟨rfl, rfl, rfl, by simp [sceneJob, Job.begin, sceneStart]⟩

/-- The loading of several slots taken to its end (R118). -/
theorem Takes.loadSlots (hr : s.role = some r) (ho : s.isOccupied = false)
    (he : ∃ e y, s.mvc.active = some e ∧ targetOf r id y ≠ none ∧ e.slots.get y = .pending) (l : List Slot) (hl : l.Nodup)
    (h : ∀ sl ∈ l, s.ReadyFor r id sl) :
    ∃ k ≤ 5 * l.length, Takes k (l.map (.loadSlot · id)) s (s.slotsLoaded r id l) := by
  induction l generalizing s with
  | nil => exact ⟨0, le_rfl, .nil s⟩
  | cons sl l ih =>
    obtain ⟨hsl, hl⟩ := List.nodup_cons.mp hl
    obtain ⟨a, ha, hfirst⟩ := Takes.loadSlot hr ho (h sl (by simp)) he
    have he' : ∃ e y, (s.slotLoaded r id sl).mvc.active = some e ∧ targetOf r id y ≠ none ∧ e.slots.get y = .pending := by
      obtain ⟨e, y, hact, hy, hp⟩ := he
      refine ⟨_, y, by rw [State.slotLoaded_active, hact]; rfl, hy, ?_⟩
      by_cases hx : sl = y
      · subst hx
        simpa [PerSlot.get_set, hy] using hp
      · simpa [PerSlot.get_set, hx] using hp
    obtain ⟨b, hb, hrest⟩ := ih (s := s.slotLoaded r id sl) (by simpa using hr) (by simpa [State.isOccupied] using ho) he' hl
      (fun x hx => (h x (by simp [hx])).slotLoaded (fun e => hsl (e ▸ hx)))
    exact ⟨b + a, by simp only [List.length_cons]; omega, hfirst.append hrest⟩

/-- The slots of a scene after its loading: those without a target have their outcome (R118). -/
def loadedSlots (r : Role) (id : Nat) : PerSlot SlotOutcome :=
  PerSlot.tabulate (fun sl => if targetOf r id sl = none then .ended .noJob else .pending)

theorem State.slotsLoaded_active {e : SceneEntry} (h : s.mvc.active = some { e with slots := .all .pending }) :
    (s.slotsLoaded r id allSlots).mvc.active = some { e with slots := loadedSlots r id } := by
  simp only [State.slotsLoaded, allSlots, List.foldl, State.slotLoaded_active, h]
  rfl

theorem State.slotsLoaded_rest (l : List Slot) (s : State) :
    (s.slotsLoaded r id l).clu = s.clu ∧ (s.slotsLoaded r id l).mvc.ending = s.mvc.ending := by
  induction l generalizing s with
  | nil => exact ⟨rfl, rfl⟩
  | cons y l ih => exact (ih (s.slotLoaded r id y)).imp (·.trans (by simp)) (·.trans (by simp))

/-- A scene that passes its gates is loaded on idle axes in one step (R115 to R118). -/
theorem Takes.sceneGates (hr : s.role = some r) (ho : s.isOccupied = false) (hg : s.sceneGate = none)
    (he : ∃ e y, s.mvc.active = some e ∧ targetOf r id y ≠ none ∧ e.slots.get y = .pending)
    (h : ∀ sl, s.ReadyFor r id sl) : ∃ k ≤ 16, Takes k [.sceneGates id] s (s.slotsLoaded r id allSlots) := by
  obtain ⟨k, hk, hload⟩ := Takes.loadSlots hr ho he allSlots (by decide) (fun sl _ => h sl)
  refine ⟨k + 1, Nat.succ_le_succ hk, .answer rfl ?_⟩
  rw [show handle (.sceneGates id) s = (s, allSlots.map (fun sl => .loadSlot sl id)) by simp [handle, State.sceneGates, hg]]
  exact hload

end

/-- A scene is taken where its frame asks for one and none is active (R115, R116). -/
theorem State.sceneFrame_taken {f : Frame} {r : Role} {id : Nat} {scope : BitVec 6} (hst : s.station = .run) (hr : s.role = some r)
    (hp : payload f = .scene id scope) (hid : id ≤ 5) (hs : scope.getLsbD (roleCode r) = true) (hf : f.sender ≠ 6)
    (ha : s.mvc.active = none) :
    s.sceneFrame f = (s.openScene (.scene id) f.sender (.all .pending) none, [.sceneGates id]) := by
  have hknown : knownSender f.sender = true := by
    have hlt : f.sender < 8 := Nat.mod_lt _ (by decide)
    generalize f.sender = n at hf hlt
    interval_cases n <;> simp_all [knownSender, roleOf, gatewayCode]
  simp [State.sceneFrame, hp, hr, hst, hknown, hid, inScope, hs, State.takeScene, State.supersede_none ha]

/-- A SCENE, past the gates and on idle axes, opens the scene record and starts its jobs (R115 to R119). -/
theorem sceneTaken_starts {n : Nat} {f : Frame} {echo : Bool} {rest : List RxFrame} {r : Role} {id : Nat} {scope : BitVec 6}
    (h : TakesFrame s kScene echo f rest) (hst : s.station = .run) (hr : s.role = some r) (hp : payload f = .scene id scope)
    (hid : id ≤ 5) (hs : scope.getLsbD (roleCode r) = true) (hf : f.sender ≠ 6) (hg : s.sceneGate = none) (ho : s.isOccupied = false)
    (ha : s.mvc.active = none) (hready : ∀ sl, s.ReadyFor r id sl) (htarget : ∃ sl, targetOf r id sl ≠ none) :
    ∃ t, exec (.sceneTaken n) s = .next t ∧ SamePassages (s.leaving rest) t ∧ t.clu = s.clu ∧ t.mvc.ending = s.mvc.ending ∧
      t.mvc.active = some { id := .scene id, requester := f.sender, learnSlot := none, slots := loadedSlots r id } ∧
      ∀ sl, s.LoadedAt t r id sl := by
  have hframe := State.sceneFrame_taken (s := s.frameTaken n) (f := f) (by simpa) (by simpa) hp hid hs hf (by simpa)
  let u := (s.frameTaken n).openScene (.scene id) f.sender (.all .pending) none
  have hu : (s.frameTaken n).sceneFrame f = (u, [.sceneGates id]) := hframe
  obtain ⟨y, hy⟩ := htarget
  have hmvc : u.mvc = { s.mvc with active := u.mvc.active } := by simp [u, State.openScene, State.setScene]
  have hready' : ∀ sl, u.ReadyFor r id sl := fun sl =>
    (hready sl).of_same (s.frameTaken_job n sl) (s.frameTaken_queuedAt n sl) (s.frameTaken_drive n sl) (s.frameTaken_clu n)
  obtain ⟨k, hk, htakes⟩ : ∃ k ≤ 16, Takes k [.sceneGates id] u (u.slotsLoaded r id allSlots) :=
    Takes.sceneGates ((s.frameTaken_role n).trans hr) (by simpa [u, State.isOccupied, State.openScene, State.setScene] using ho)
      (by simpa [u, State.sceneGate, State.stillPark, State.supplyBars, State.openScene, State.setScene] using hg)
      ⟨_, y, rfl, hy, PerSlot.get_all _ _⟩ hready'
  have hsettle : settle (u, [.sceneGates id]) = (u.slotsLoaded r id allSlots).takeActivity :=
    htakes.settle (hk.trans (by decide))
  obtain ⟨-, -, -, hclu, -, hm, -⟩ := (u.slotsLoaded r id allSlots).takeActivity_keeps
  obtain ⟨hrest, hending⟩ := State.slotsLoaded_rest (r := r) (id := id) allSlots u
  refine ⟨settle (u, [.sceneGates id]), ?_, ?_, ?_, ?_, ?_, fun sl => ?_⟩
  · show Host.Outcome.next (settle ((s.withSense n).take kScene true (fun t f _ => t.sceneFrame f))) = _
    rw [h.take n, hu]
  · have hopen : SamePassages (s.frameTaken n) u := (Evolves.scene (loose := False) _ _ _).passages
    have hlocal : AllLocal [Report.sceneGates id] := fun x hx => by rw [List.mem_singleton.mp hx]; rfl
    exact ((State.frameTaken_passages h.head n).trans hopen).trans (settle_passages (e := (u, _)) hlocal)
  · rw [hsettle, hclu, hrest]
    exact s.frameTaken_clu n
  · rw [hsettle, hm, hending, hmvc]
  · rw [hsettle, hm]
    exact State.slotsLoaded_active (e := ⟨.scene id, f.sender, .all .pending, none⟩) rfl
  · have hsame : SameSlot (u.slotsLoaded r id allSlots) (settle (u, [.sceneGates id])) sl := by
      rw [hsettle]
      exact State.takeActivity_sameSlot _ sl
    have hbefore : SameSlot s u sl := ⟨s.frameTaken_job n sl, by rw [hmvc], s.frameTaken_drive n sl⟩
    exact ((State.slotsLoaded_at allSlots (by decide) u (mem_allSlots sl)).after hsame).before hbefore

theorem loadedSlots_eq (r : Role) (id : Nat) :
    loadedSlots r id = PerSlot.tabulate (fun sl =>
      match (kindOf r sl).bind (sceneTarget id r) with
      | some _ => .pending
      | none => .ended .noJob) := by
  unfold loadedSlots
  congr 1
  funext sl
  cases h : (kindOf r sl).bind (sceneTarget id r) with
  | none => rw [if_pos (targetOf_eq_none.mpr h)]
  | some p => rw [if_neg (fun hn => by simp [targetOf_eq_none.mp hn] at h)]

/-- Settles O26: supersession, the loading of one slot and the start of a job that has waited by the cases of their definitions; the
SCENE itself by carrying the reports of its slots to their end. -/
theorem sceneStartsMoves : Obligations.SceneStartsMoves := by
  refine ⟨?_, ?_, ?_, ?_⟩
  · intro s n f echo rest r id scope h hst hr hp hid hs hf hstill hpark hknown hlevel ho ha hidle hclear hsome
    have hg : s.sceneGate = none := by
      have hpark : s.stillPark = true := by simp [State.stillPark, Gateway.stillPark, hstill, hpark, hknown]
      have hsupply : s.supplyBars = false := by rcases hlevel with h | h <;> simp [State.supplyBars, h]
      simp [State.sceneGate, hpark, hsupply]
    have hready : ∀ sl, s.ReadyFor r id sl := fun sl =>
      ⟨(hidle sl).1, (hidle sl).2, fun k p ht => (hclear sl k p (targetOf_eq_some.mp ht).1 (targetOf_eq_some.mp ht).2).1,
        fun k p ht => (hclear sl k p (targetOf_eq_some.mp ht).1 (targetOf_eq_some.mp ht).2).2⟩
    have htarget : ∃ sl, targetOf r id sl ≠ none := by
      obtain ⟨sl, k, p, hk, hp⟩ := hsome
      exact ⟨sl, by rw [targetOf_eq_some.mpr ⟨hk, hp⟩]; simp⟩
    obtain ⟨t, hexec, hpass, hclu, hending, hactive, hload⟩ := sceneTaken_starts (n := n) h hst hr hp hid hs hf hg ho ha hready htarget
    refine ⟨t, hexec, hpass, hclu, hending, hactive.trans (congrArg (fun x => some (SceneEntry.mk _ _ x _)) (loadedSlots_eq r id)),
      fun sl => ?_⟩
    have hat := hload sl
    unfold State.LoadedAt at hat
    cases hk : kindOf r sl with
    | none =>
      rw [targetOf_eq_none.mpr (by simp [hk])] at hat
      exact ⟨hat.job, hat.pins, hat.drive⟩
    | some k =>
      cases hp : sceneTarget id r k with
      | none =>
        rw [targetOf_eq_none.mpr (by simp [hk, hp])] at hat
        simp only [Option.bind_some, hp]
        exact ⟨hat.job, hat.pins, hat.drive⟩
      | some p =>
        rw [targetOf_eq_some.mpr ⟨hk, hp⟩] at hat
        simp only [Option.bind_some, hp]
        exact hat
  · intro s e h
    refine ⟨s.supersededEntry e, rfl, rfl, rfl, s.supersede_slot h, ?_, ?_, ?_, s.supersede_pending h, s.supersede_complete h⟩
    all_goals
      obtain ⟨fs, gs, ht⟩ := State.supersede_eq h
      rw [ht]
      rfl
  · intro s r sl id hr
    refine ⟨fun h => State.loadSlot_none hr (targetOf_eq_none.mpr h), fun k p hk hp => ?_⟩
    have ht := targetOf_eq_some.mpr ⟨hk, hp⟩
    refine ⟨fun hb => ?_, fun hb hd => ?_, fun hb hd => State.loadSlot_starts hr ht hb hd⟩
    · rw [State.loadSlot_occupied hr ht hb]
      exact s.refuseSlot_spec sl _
    · rw [State.loadSlot_disabled hr ht hb hd]
      exact s.refuseSlot_spec sl _
  · intro s sl id p x ref hk hj hq hd
    exact State.startQueued_sceneStart hk hj hq hd

end Sys2Proof.Machine
end

section
/-! PROOFS. What a step keeps of the general slots: no report takes a frame from them but a CLAIM withdrawn (R51, R153). One lemma for
each operation that may hand a frame over; every other leaves the bus interface as it was. -/

namespace Sys2Proof.Machine

variable {s t u : State}

/-- The frames of the general slots that are no CLAIM, kept. -/
def FramesKept (s t : State) : Prop := ∀ f ∈ s.bus.general, f.kind ≠ kClaim → f ∈ t.bus.general

namespace FramesKept

theorem refl (s : State) : FramesKept s s := fun _ hf _ => hf

theorem trans (h : FramesKept s t) (g : FramesKept t u) : FramesKept s u := fun f hf hk => g f (h f hf hk) hk

theorem of_bus (h : t.bus = s.bus) : FramesKept s t := fun f hf _ => by rwa [h]

theorem of_subset (h : s.bus.general ⊆ t.bus.general) : FramesKept s t := fun _ hf _ => h hf

/-- Frames kept from a state with the same bus interface on. -/
theorem after (h : FramesKept t u) (hb : t.bus = s.bus) : FramesKept s u := (of_bus hb).trans h

theorem andThen {e : Effect} {f : State → Effect} (h : FramesKept s e.1) (g : FramesKept e.1 (f e.1).1) : FramesKept s (e.andThen f).1 :=
  h.trans g

end FramesKept

theorem overAll_framesKept {α : Type} {f : State → α → Effect} (hf : ∀ s x, FramesKept s (f s x).1) (xs : List α) (s : State) :
    FramesKept s (overAll f xs s).1 := by
  induction xs generalizing s with
  | nil => exact .refl s
  | cons x xs ih => exact (hf s x).andThen (ih _)

/-! ### Operations that leave the bus interface as it was -/

theorem foldl_bus {α : Type} {f : State → α → State} (hf : ∀ s x, (f s x).bus = s.bus) (l : List α) (s : State) :
    (l.foldl f s).bus = s.bus := by
  induction l generalizing s with
  | nil => rfl
  | cons x l ih => rw [List.foldl, ih, hf]

@[simp] theorem State.markPassed_bus (s : State) (sl : Slot) : (s.markPassed sl).bus = s.bus := by
  unfold State.markPassed; simp only; split <;> rfl

@[simp] theorem State.grantEntries_bus (s : State) (v : View) : (s.grantEntries v).bus = s.bus := by
  obtain ⟨js, h⟩ := s.grantEntries_eq v
  rw [h]

@[simp] theorem State.viewTo_bus (s : State) (p : Nat) (st : ViewState) : (s.viewTo p st).1.bus = s.bus := by
  unfold State.viewTo
  repeat' split
  · rfl
  · rfl
  · rename_i v _ _
    obtain ⟨es, h⟩ := s.moveView_eq v st
    rw [State.grantEntries_bus, h]
    rfl

@[simp] theorem State.driveOff_bus (s : State) (sl : Slot) (a : AfterBrake) : (s.driveOff sl a).bus = s.bus := rfl

@[simp] theorem State.rest_bus (s : State) (sl : Slot) (st : AxisState) (r : Option Run) : (s.rest sl st r).bus = s.bus := by
  unfold State.rest; simp only; split <;> simp

@[simp] theorem State.setReferenced_bus (s : State) (sl : Slot) (b : Bool) : (s.setReferenced sl b).bus = s.bus := rfl

@[simp] theorem State.enterDriving_bus (s : State) (sl : Slot) (r : Run) : (s.enterDriving sl r).1.bus = s.bus := by
  unfold State.enterDriving; simp only; repeat' split
  all_goals simp

@[simp] theorem State.tryDriving_bus (s : State) (sl : Slot) (r : Run) : (s.tryDriving sl r).1.bus = s.bus := by
  unfold State.tryDriving State.endRun; repeat' split
  all_goals simp

@[simp] theorem State.testRun_bus (s : State) (sl : Slot) (r : Run) : (s.testRun sl r).1.bus = s.bus := by
  unfold State.testRun State.endRun; repeat' split
  all_goals simp

@[simp] theorem State.openRun_bus (s : State) (sl : Slot) (r : Run) : (s.openRun sl r).bus = s.bus := by
  unfold State.openRun; split <;> simp

@[simp] theorem State.beginRun_bus (s : State) (sl : Slot) (r : Run) : (s.beginRun sl r).1.bus = s.bus := by
  unfold State.beginRun State.endRun; split <;> simp

@[simp] theorem State.takeBraking_bus (s : State) (sl : Slot) (r : Run) : (s.takeBraking sl r).1.bus = s.bus := by
  unfold State.takeBraking State.dropWaiting State.joinBraking Effect.andThen; simp only; repeat' split
  all_goals simp

@[simp] theorem State.takeRun_bus (s : State) (sl : Slot) (r : Run) : (s.takeRun sl r).1.bus = s.bus := by
  unfold State.takeRun; simp only; repeat' split
  all_goals simp

@[simp] theorem State.beginWaiting_bus (s : State) (sl : Slot) : (s.beginWaiting sl).1.bus = s.bus := by
  unfold State.beginWaiting; split <;> simp

@[simp] theorem State.onEnvelope_bus (s : State) (sl : Slot) : (s.onEnvelope sl).1.bus = s.bus := by
  unfold State.onEnvelope; simp only; repeat' split
  all_goals simp

@[simp] theorem State.aduControl_bus (s : State) (sl : Slot) : (s.aduControl sl).1.bus = s.bus := by
  unfold State.aduControl State.shiftPulses State.driveLoop; simp only; repeat' split
  all_goals simp

@[simp] theorem State.stopDrives_bus (s : State) : s.stopDrives.bus = s.bus :=
  foldl_bus (fun t sl => by split <;> rfl) _ _

@[simp] theorem State.driveEntered_bus (s : State) : s.driveEntered.1.bus = s.bus := by
  unfold State.driveEntered State.takeSample; simp only; split <;> simp

@[simp] theorem State.failEntry_bus (s : State) (sl : Slot) (p : Nat) (f : Failure) : (s.failEntry sl p f).1.bus = s.bus := by
  unfold State.failEntry; simp only; repeat' split
  all_goals simp

@[simp] theorem State.handRun_bus (s : State) (sl : Slot) : (s.handRun sl).1.bus = s.bus := by
  unfold State.handRun; simp only; split <;> simp

@[simp] theorem State.learnCheck_bus (s : State) (sl : Slot) : (s.learnCheck sl).1.bus = s.bus := by
  unfold State.learnCheck; simp only; split <;> simp

@[simp] theorem State.endRequest_bus (s : State) (sl : Slot) (o : JobOutcome) : (s.endRequest sl o).1.bus = s.bus := by
  unfold State.endRequest; simp only; repeat' split
  all_goals simp

@[simp] theorem State.startMove_bus (s : State) (sl : Slot) (j : Job) (x : Int) : (s.startMove sl j x).1.bus = s.bus := rfl

@[simp] theorem State.runEnded_bus (s : State) (sl : Slot) (e : RunEnd) : (s.runEnded sl e).1.bus = s.bus := by
  unfold State.runEnded State.takeRawCount State.continueScene; simp only; repeat' split
  all_goals simp

@[simp] theorem State.finishJob_bus (s : State) (sl : Slot) (o : JobOutcome) : (s.finishJob sl o).1.bus = s.bus := by
  unfold State.finishJob State.yieldOver; simp only; repeat' split
  all_goals simp

@[simp] theorem State.startScene_bus (s : State) (sl : Slot) (id p : Nat) (x : Int) (b : Bool) :
    (s.startScene sl id p x b).1.bus = s.bus := by
  unfold State.startScene; simp only; repeat' split
  all_goals rfl

@[simp] theorem State.startJog_bus (s : State) (sl : Slot) (dir : Dir) : (s.startJog sl dir).1.bus = s.bus := by
  unfold State.startJog; simp only; repeat' split
  all_goals rfl

@[simp] theorem State.startQueued_bus (s : State) (sl : Slot) : (s.startQueued sl).1.bus = s.bus := by
  unfold State.startQueued; simp only; repeat' split
  all_goals simp [State.startLearn]

@[simp] theorem State.sceneGates_bus (s : State) (id : Nat) : (s.sceneGates id).1.bus = s.bus := by
  unfold State.sceneGates; split <;> rfl

@[simp] theorem State.loadSlot_bus (s : State) (sl : Slot) (id : Nat) : (s.loadSlot sl id).1.bus = s.bus := by
  unfold State.loadSlot; repeat' split
  all_goals rfl

@[simp] theorem State.startYield_bus (s : State) (p : Nat) (sl : Slot) : (s.startYield p sl).1.bus = s.bus := by
  unfold State.startYield; repeat' split
  all_goals rfl

@[simp] theorem State.jogRequest_bus (s : State) (sl : Slot) (dir : Dir) : (s.jogRequest sl dir).1.bus = s.bus := by
  unfold State.jogRequest; repeat' split
  all_goals rfl

@[simp] theorem State.arbitrateAxis_bus (s : State) (p : Nat) (x : SelfAxis) : (s.arbitrateAxis p x).1.bus = s.bus := by
  unfold State.arbitrateAxis State.grantSelf State.waitSelf; simp only; repeat' split
  all_goals simp

@[simp] theorem State.arbitrate_bus (s : State) (p : Nat) : (s.arbitrate p).1.bus = s.bus := by
  unfold State.arbitrate Effect.andThen; repeat' split
  all_goals simp

/-! ### Operations that hand a frame over, or withdraw one -/

namespace State

theorem handPassage_framesKept (s : State) (p : Nat) (k : PassageKind) (pl : Payload) : FramesKept s (s.handPassage p k pl) := by
  unfold handPassage placePassage
  split
  · exact .of_subset (List.subset_append_left _ _)
  · exact .of_bus rfl

theorem drainOutgoing_subset (n : Nat) (s : State) : s.bus.general ⊆ (drainOutgoing n s).bus.general := by
  induction n generalizing s with
  | zero => exact List.Subset.refl _
  | succ n ih =>
    unfold drainOutgoing
    repeat' split
    · exact List.Subset.refl _
    · refine List.Subset.trans ?_ (ih _)
      exact List.subset_append_left _ _
    · exact List.Subset.refl _

theorem sendResult_framesKept (s : State) (e : SceneEntry) : FramesKept s (s.sendResult e) := by
  refine .of_subset (List.Subset.trans (drainOutgoing_subset Config.outgoingCapacity s) ?_)
  exact drainOutgoing_subset Config.outgoingCapacity
    { drainOutgoing Config.outgoingCapacity s with mvc := (drainOutgoing Config.outgoingCapacity s).mvc.append _ }

theorem handClaim_framesKept (s : State) (p : Nat) (st : Standing) : FramesKept s (s.handClaim p st) := handPassage_framesKept _ _ _ _
theorem handCede_framesKept (s : State) (p : Nat) : FramesKept s (s.handCede p) := handPassage_framesKept _ _ _ _
theorem handDecline_framesKept (s : State) (p : Nat) (r : Reason) : FramesKept s (s.handDecline p r) := handPassage_framesKept _ _ _ _

theorem enterOutcome_framesKept (s : State) (sl : Slot) (m : Member) (o : JobOutcome) : FramesKept s (s.enterOutcome sl m o).1 := by
  unfold enterOutcome
  simp only
  repeat' split
  · exact .refl s
  · exact .refl s
  · exact (sendResult_framesKept _ _).after rfl
  · exact .of_bus rfl
  · exact (sendResult_framesKept _ _).after rfl
  · exact .of_bus rfl

theorem serveDueStake_framesKept (s : State) (p : Nat) : FramesKept s (s.serveDueStake p) :=
  FramesKept.after (handPassage_framesKept _ p .stake (.stake p)) rfl

theorem serveDue_framesKept (s : State) (p : Nat) : FramesKept s (s.serveDue p) := by
  unfold serveDue
  repeat' split
  · exact .refl s
  · exact .refl s
  · exact (handCede_framesKept _ p).after rfl
  · exact serveDueStake_framesKept s p
  · exact .of_bus rfl
  · exact .refl s

theorem serve_framesKept (s : State) (p : Nat) : FramesKept s (s.serve p).1 := by
  unfold serve
  split
  · exact .refl s
  · split
    · exact .refl s
    · exact serveDue_framesKept s p

theorem serveStake_framesKept (s : State) (p : Nat) : FramesKept s (s.serveStake p).1 := by
  unfold serveStake
  repeat' split
  · exact .refl s
  · exact serveDueStake_framesKept s p
  · exact .refl s
  · exact .of_bus rfl
  · exact .refl s

theorem decline_framesKept (s : State) (v : View) (r : Reason) : FramesKept s (s.decline v r).1 := by
  unfold decline
  repeat' split
  · exact handDecline_framesKept _ _ _
  · exact .refl s
  · exact .refl s
  · exact .of_bus rfl

theorem release_framesKept (s : State) (p : Nat) : FramesKept s (s.release p).1 := by
  have hm : ∀ v : View, (v.ownSlots.foldl markPassed s).bus = s.bus := fun v => foldl_bus markPassed_bus _ _
  unfold release
  simp only
  repeat' split
  · exact .refl s
  · exact (handCede_framesKept _ _).after (hm _)
  · exact .of_bus (hm _)
  · exact .of_bus (hm _)
  · exact .of_bus ((viewTo_bus _ _ _).trans (hm _))
  · exact .of_bus ((viewTo_bus _ _ _).trans (hm _))
  · exact .of_bus (hm _)

theorem evalYield_framesKept (s : State) (p : Nat) : FramesKept s (s.evalYield p).1 := by
  unfold evalYield
  simp only
  repeat' split
  all_goals first
    | exact .refl s
    | exact .of_bus (markPassed_bus _ _)
    | exact (decline_framesKept _ _ _).after (markPassed_bus _ _)

theorem claimInConflict_bus (s : State) (sl : Slot) (v : View) : (s.claimInConflict sl v).1.bus = s.bus := by
  unfold claimInConflict
  split
  · rfl
  · split
    · split <;> rfl
    · rfl

theorem claimOpen_framesKept (s : State) (sl : Slot) (p : Nat) : FramesKept s (s.claimOpen sl p).1 :=
  FramesKept.after (handClaim_framesKept _ p _) (viewTo_bus _ p .pending)

theorem decideEntry_framesKept (s : State) (sl : Slot) (p : Nat) : FramesKept s (s.decideEntry sl p).1 := by
  unfold decideEntry
  simp only
  repeat' split
  all_goals first
    | with_reducible exact claimOpen_framesKept s sl p
    | with_reducible exact .of_bus (claimInConflict_bus s sl _)
    | with_reducible exact (handClaim_framesKept _ p _).after rfl
    | exact .of_bus rfl

theorem loseFlight_framesKept (s : State) (p : Nat) : FramesKept s (s.loseFlight p).1 := by
  refine FramesKept.trans ?_ (serveDue_framesKept _ p)
  split
  · split
    · exact .of_bus (viewTo_bus _ _ _)
    · exact .of_bus rfl
  · exact .of_bus rfl

/-- The CLAIM withdrawn is the one frame that leaves the general slots (R51, R153). -/
theorem withdrawFlight_framesKept (s : State) (p : Nat) : FramesKept s (s.withdrawFlight p).1 := by
  unfold withdrawFlight
  repeat' split
  · exact (loseFlight_framesKept _ p).after rfl
  · exact .of_bus rfl
  · refine FramesKept.trans (fun f hf hk => List.mem_filter.mpr ⟨hf, ?_⟩) (loseFlight_framesKept _ p)
    simp [isClaimOf, hk]
  · exact .of_bus rfl

theorem withdrawClaim_framesKept (s : State) (sl : Slot) (p : Nat) (st : EntryStatus) (v0 : ViewState) :
    FramesKept s (s.withdrawClaim sl p st v0).1 := by
  unfold withdrawClaim
  simp only
  repeat' split
  · exact .refl s
  · exact .of_bus rfl
  · exact .of_bus rfl
  · exact withdrawFlight_framesKept s p
  · exact .of_bus rfl
  · exact (handCede_framesKept _ p).after rfl
  · exact .of_bus rfl
  · exact .of_bus (viewTo_bus _ _ _)
  · exact .refl s

end State

/-! ### A whole step -/

/-- No local report takes a frame that is no CLAIM from the general slots. -/
theorem handle_framesKept (r : Report) (s : State) (h : r.isLocal = true) : FramesKept s (handle r s).1 := by
  cases r with
  | envelope sl => exact .of_bus (State.onEnvelope_bus _ sl)
  | release p => exact State.release_framesKept s p
  | evalYield p => exact State.evalYield_framesKept s p
  | serve p => exact State.serve_framesKept s p
  | serveStake p =>
    unfold handle
    simp only
    split
    · exact .refl s
    · exact State.serveStake_framesKept s p
  | arbitrate p => exact .of_bus (State.arbitrate_bus s p)
  | decide sl p => exact State.decideEntry_framesKept s sl p
  | withdraw sl p st v0 => exact State.withdrawClaim_framesKept s sl p st v0
  | failEntry sl p f => exact .of_bus (State.failEntry_bus s sl p f)
  | handRun sl => exact .of_bus (State.handRun_bus s sl)
  | learnCheck sl => exact .of_bus (State.learnCheck_bus s sl)
  | aduControl sl => exact .of_bus (State.aduControl_bus s sl)
  | beginWaiting sl => exact .of_bus (State.beginWaiting_bus s sl)
  | driveEntered => exact .of_bus (State.driveEntered_bus s)
  | supplyCritical => exact .of_bus rfl
  | endRequest sl o => exact .of_bus (State.endRequest_bus s sl o)
  | endRequests sls o => exact overAll_framesKept (fun t sl => .of_bus (State.endRequest_bus t sl o)) sls s
  | runEnded sl e => exact .of_bus (State.runEnded_bus s sl e)
  | finishJob sl o => exact .of_bus (State.finishJob_bus s sl o)
  | replaceJob sl q o => exact .of_bus rfl
  | startQueued sl => exact .of_bus (State.startQueued_bus s sl)
  | sceneOutcome sl m o => exact State.enterOutcome_framesKept s sl m o
  | sceneGates id => exact .of_bus (State.sceneGates_bus s id)
  | loadSlot sl id => exact .of_bus (State.loadSlot_bus s sl id)
  | startYield p sl => exact .of_bus (State.startYield_bus s p sl)
  | jogRequest sl dir => exact .of_bus (State.jogRequest_bus s sl dir)
  | unheardEntered => exact .of_bus rfl
  | unheardCleared => exact overAll_framesKept State.serveStake_framesKept _ s
  | retest p => simp [Report.isLocal] at h
  | peerLost r => simp [Report.isLocal] at h
  | peerReturned r => simp [Report.isLocal] at h
  | peerTests r => simp [Report.isLocal] at h
  | clearForced r => simp [Report.isLocal] at h
  | pairTests p => simp [Report.isLocal] at h
  | syncExit => simp [Report.isLocal] at h

/-- A step of local reports keeps every frame of the general slots that is no CLAIM. -/
theorem settle_framesKept {e : Effect} (h : AllLocal e.2) : FramesKept e.1 (settle e) := by
  intro f hf hk
  have hkept : f ∈ (cascade reportBound e.2 [] e.1).bus.general :=
    cascade_keeps (J := fun t => f ∈ t.bus.general) (R := fun r => r.isLocal = true)
      (fun r t hr ht => ⟨handle_framesKept r t hr f ht hk, handle_local r t hr⟩) _ _ _ _ hf h (by simp)
  obtain ⟨-, -, -, -, hgeneral, -⟩ := (cascade reportBound e.2 [] e.1).takeActivity_keeps
  rw [settle, hgeneral]
  exact hkept

end Sys2Proof.Machine
end

section
/-! PROOFS. O52: a sample of the switches debounces each input, sends the one-touch SCENE, and starts and ends jogs. -/

namespace Sys2Proof.Machine

variable {s : State} {sl : Slot}

/-! ### What one sample debounces (R121, R144) -/

/-- A switch moves to the level of its newest three raw samples, where they agree (R144). -/
theorem debounce_switch (d : Debounce) (level : Bool) :
    debounce switchSamples d (pressed level) =
      ⟨if ((!level) :: d.samples).take 3 = [!level, !level, !level] then !level else d.stable, ((!level) :: d.samples).take 3⟩ := by
  obtain ⟨st, xs⟩ := d
  match xs with
  | [] => simp [debounce, switchSamples, pressed]
  | [a] => simp [debounce, switchSamples, pressed]
  | a :: b :: rest => cases level <;> cases a <;> cases b <;> cases st <;> simp [debounce, switchSamples, pressed]

theorem jogStateOf_eq (a b : Bool) :
    jogStateOf a b = if a = true ∧ b = false then .up else if a = false ∧ b = true then .down else .neutral := by
  cases a <;> cases b <;> rfl

/-! ### The press of ONE (R16) -/

theorem State.noteActivity_eq (s : State) : ∃ a, s.noteActivity = { s with amon := a } := by
  unfold State.noteActivity
  split
  · exact ⟨_, rfl⟩
  · exact ⟨_, rfl⟩

theorem State.onePress_eq (s : State) :
    ∃ fs gs, s.onePress = { s with mvc := { s.mvc with outgoing := fs }, bus := { s.bus with general := gs } } := by
  unfold State.onePress
  repeat' split
  · exact State.placeOutgoing_eq _ _
  · exact ⟨_, _, rfl⟩
  · exact ⟨_, _, rfl⟩

/-- With nothing before it and a general slot free, the one-touch SCENE takes the slot at once (R16, R152). -/
theorem State.onePress_free {r : Role} {id : Nat} {scope : BitVec 6} (hst : s.station = .run) (hr : s.role = some r)
    (ho : oneTouch r = some (id, scope)) (hb : s.bus.busOff = none) (hw : s.clu.waiting = []) (hout : s.mvc.outgoing = [])
    (hg : s.bus.general.length < 5) : encode (roleCode r) (.scene id scope) ∈ s.onePress.bus.general := by
  have hopen : s.busOpen = true := by simp [State.busOpen, hst, hb]
  have hpress : s.onePress = s.placeOutgoing (encode (roleCode r) (.scene id scope)) := by
    simp [State.onePress, hst, hr, ho, State.sender]
  rw [hpress]
  exact State.placeOutgoing_free hopen hw hout hg

/-- The station after one sample of the switches, but for the jogs: the press of ONE comes before them. -/
def State.switchesTaken (s : State) (pins : SwitchPins) : State :=
  let l := s.liu.sampleSwitches pins
  let t := { s with liu := l }
  let t1 := if s.liu.switchChanged l then t.noteActivity else t
  if l.one.stable && !s.liu.one.stable then t1.onePress else t1

/-- The sample as the AMON is told of it. -/
theorem State.sampled_eq (s : State) (l : Liu) :
    ∃ a, (if s.liu.switchChanged l then State.noteActivity { s with liu := l } else { s with liu := l }) =
      { s with liu := l, amon := a } := by
  split
  · exact State.noteActivity_eq _
  · exact ⟨_, rfl⟩

theorem State.switchesTaken_eq (s : State) (pins : SwitchPins) :
    ∃ a fs gs, s.switchesTaken pins =
      { s with
        liu := s.liu.sampleSwitches pins, amon := a, mvc := { s.mvc with outgoing := fs }, bus := { s.bus with general := gs } } := by
  obtain ⟨a, ha⟩ := s.sampled_eq (s.liu.sampleSwitches pins)
  unfold State.switchesTaken
  simp only
  rw [ha]
  split
  · obtain ⟨fs, gs, h⟩ := State.onePress_eq { s with liu := s.liu.sampleSwitches pins, amon := a }
    exact ⟨a, fs, gs, h⟩
  · exact ⟨a, _, _, rfl⟩

/-- A press of ONE debounced by the sample puts the one-touch SCENE in a free general slot (R16). -/
theorem State.switchesTaken_one {pins : SwitchPins} {r : Role} {id : Nat} {scope : BitVec 6} (hst : s.station = .run)
    (hr : s.role = some r) (ho : oneTouch r = some (id, scope)) (h0 : s.liu.one.stable = false)
    (h1 : (s.liu.sampleSwitches pins).one.stable = true) (hb : s.bus.busOff = none) (hw : s.clu.waiting = [])
    (hout : s.mvc.outgoing = []) (hg : s.bus.general.length < 5) :
    encode (roleCode r) (.scene id scope) ∈ (s.switchesTaken pins).bus.general := by
  obtain ⟨a, ha⟩ := s.sampled_eq (s.liu.sampleSwitches pins)
  unfold State.switchesTaken
  simp only
  rw [ha, h0, h1]
  exact State.onePress_free (s := { s with liu := s.liu.sampleSwitches pins, amon := a }) hst hr ho hb hw hout hg

/-! ### The jogs (R121, R122) -/

/-- The jog states of the three slots, in slot order. -/
def State.jogChanges (s : State) (l : Liu) : Effect :=
  ((s.jogChange .s0 (l.jogOf .s0)).andThen (fun u => u.jogChange .s1 (l.jogOf .s1))).andThen (fun u => u.jogChange .s2 (l.jogOf .s2))

theorem State.sampleSwitches_eq (s : State) (pins : SwitchPins) :
    s.sampleSwitches pins = (s.switchesTaken pins).jogChanges (s.liu.sampleSwitches pins) := rfl

theorem State.jogChange_same {j : JogState} (h : s.mvc.jogs.get sl = j) : s.jogChange sl j = (s, []) := by
  simp [State.jogChange, h]

theorem State.jogChange_eq (s : State) (sl : Slot) (j : JogState) :
    ∃ q, (s.jogChange sl j).1 = { s with mvc := { s.mvc with jogs := s.mvc.jogs.set sl j, queued := q } } := by
  by_cases h : s.mvc.jogs.get sl = j
  · refine ⟨s.mvc.queued, ?_⟩
    rw [State.jogChange_same h, ← h, PerSlot.set_get_self]
  · unfold State.jogChange
    simp only [if_neg h]
    repeat' split
    all_goals exact ⟨_, rfl⟩

theorem State.jogChange_local (s : State) (sl : Slot) (j : JogState) : AllLocal (s.jogChange sl j).2 := by
  unfold State.jogChange
  simp only
  repeat' split
  all_goals simp [Report.isLocal]

theorem State.jogChanges_eq (s : State) (l : Liu) :
    ∃ q, (s.jogChanges l).1 = { s with mvc := { s.mvc with jogs := PerSlot.tabulate l.jogOf, queued := q } } := by
  obtain ⟨q0, h0⟩ := s.jogChange_eq .s0 (l.jogOf .s0)
  obtain ⟨q1, h1⟩ := State.jogChange_eq (s.jogChange .s0 (l.jogOf .s0)).1 .s1 (l.jogOf .s1)
  obtain ⟨q2, h2⟩ := State.jogChange_eq (State.jogChange (s.jogChange .s0 (l.jogOf .s0)).1 .s1 (l.jogOf .s1)).1 .s2 (l.jogOf .s2)
  refine ⟨q2, h2.trans ?_⟩
  rw [h1, h0]
  rfl

theorem State.jogChanges_local (s : State) (l : Liu) : AllLocal (s.jogChanges l).2 :=
  ((State.jogChange_local _ _ _).andThen (State.jogChange_local _ _ _)).andThen (State.jogChange_local _ _ _)

/-- Where one slot alone changes its jog state, the others report nothing. -/
theorem State.jogChanges_single {l : Liu} (h : ∀ y, y ≠ sl → l.jogOf y = s.mvc.jogs.get y) :
    s.jogChanges l = s.jogChange sl (l.jogOf sl) := by
  have hsame (y : Slot) (hy : y ≠ sl) : s.jogChange y (l.jogOf y) = (s, []) := State.jogChange_same (h y hy).symm
  have hnone (y : Slot) (hy : y ≠ sl) :
      State.jogChange (s.jogChange sl (l.jogOf sl)).1 y (l.jogOf y) = ((s.jogChange sl (l.jogOf sl)).1, []) := by
    obtain ⟨q, hq⟩ := s.jogChange_eq sl (l.jogOf sl)
    refine State.jogChange_same ?_
    rw [hq, h y hy]
    exact (PerSlot.get_set _ _ _ _).trans (if_neg hy.symm)
  cases sl with
  | s0 => simp [State.jogChanges, Effect.andThen, hnone .s1, hnone .s2]
  | s1 => simp [State.jogChanges, Effect.andThen, hsame .s0, hnone .s2]
  | s2 => simp [State.jogChanges, Effect.andThen, hsame .s0, hsame .s1]

/-- A jog state that leaves NEUTRAL, with nothing waiting for the axis, asks for a jog alone (R121). -/
theorem State.jogChange_leaves {j : JogState} {dir : Dir} (h : s.mvc.jogs.get sl = .neutral) (hq : s.queuedAt sl = none)
    (hj : j = match dir with | .up => .up | .down => .down) :
    s.jogChange sl j = ({ s with mvc := { s.mvc with jogs := s.mvc.jogs.set sl j } }, [.jogRequest sl dir]) := by
  have hq' : State.queuedAt { s with mvc := { s.mvc with jogs := s.mvc.jogs.set sl j } } sl = none := hq
  subst hj
  cases dir <;> simp [State.jogChange, h, hq']

/-- A jog state that becomes NEUTRAL ends the slot's jog USER, and asks for nothing (R121). -/
theorem State.jogChange_ends (h : s.mvc.jogs.get sl ≠ .neutral) :
    (s.jogChange sl .neutral).2 = if (s.job sl).active = true ∧ (s.job sl).origin = .jog then [.endRequest sl .user] else [] := by
  unfold State.jogChange
  rw [if_neg h]
  simp only [ne_eq, h, not_false_eq_true, true_and, if_false, List.append_nil]
  split <;> rfl

/-- Why a jog is refused (R122). -/
theorem State.jogRefused_iff {k : Kind} :
    s.jogRefused sl k = true ↔
      s.station ≠ .run ∨ s.smon.level = .critical ∨ s.smon.level = .unknown ∨
        ((k = .tip ∨ k = .stow) ∧ s.pmon.gateway.speed ≠ .still) ∨ (s.rcs.writing.get sl).isSome = true := by
  have hk : stillOnly k = true ↔ k = .tip ∨ k = .stow := by cases k <;> decide
  simp [State.jogRefused, State.supplyBars, State.writingAt, hk, or_assoc]

theorem State.jogRequest_refused {k : Kind} {dir : Dir} (hk : s.kindAt sl = some k) (h : s.jogRefused sl k = true) :
    s.jogRequest sl dir = (s, []) := by
  simp [State.jogRequest, hk, h]

/-- The reports of a jog that is not refused: who is asked to end, and the jog that takes its place (R122). -/
theorem State.jogRequest_reports {k : Kind} {dir : Dir} (hk : s.kindAt sl = some k) (h : s.jogRefused sl k = false) :
    (s.jogRequest sl dir).2 =
      [.endRequests (allSlots.filter (fun x => (s.job x).active && ((s.job x).member == .active || x == sl))) .user,
        .replaceJob sl (.jog dir) .user] := by
  simp [State.jogRequest, hk, h]

/-- A jog that is not refused finds nothing to end on a station without a job (R122). -/
theorem State.jogRequest_idle {k : Kind} {dir : Dir} (hk : s.kindAt sl = some k) (h : s.jogRefused sl k = false)
    (hidle : ∀ y, (s.job y).active = false ∧ s.queuedAt y = none) :
    s.jogRequest sl dir = (s, [.endRequests [] .user, .replaceJob sl (.jog dir) .user]) := by
  have hnone : s.mvc.queued = PerSlot.tabulate (fun _ => none) :=
    PerSlot.ext_get (fun y => (hidle y).2.trans (PerSlot.get_tabulate (fun _ => none) y).symm)
  simp [State.jogRequest, hk, h, hidle, ← hnone]

/-- The record of a jog right after its start, where its way crosses no band (R112, R122). -/
def jogJob (d : Drive) (x : Int) : Job :=
  { Job.free with
    active := true, origin := .jog, requested := some x, target := some x, dir := if (d.count : Int) < x then .up else .down
    speed := .code jogCode, standing := .jog }

/-- A jog that waits for an idle axis whose way crosses no band starts at once (R33, R122). -/
theorem State.startQueued_jogJob {k : Kind} {dir : Dir} (hk : s.kindAt sl = some k) (hj : (s.job sl).active = false)
    (hr : (s.drive sl).hasRange = true) (hq : s.queuedAt sl = none)
    (hx : ∀ v ∈ s.pairsOf sl, ∀ b, v.bandFor sl = some b →
      crosses (s.drive sl).count (jogTarget k dir (s.drive sl).count (s.drive sl).span) (s.drive sl).span b = false) :
    (s.setQueued sl (some ⟨.jog dir, none⟩)).startQueued sl =
      ((s.setPin sl false).setJob sl (jogJob (s.drive sl) (jogTarget k dir (s.drive sl).count (s.drive sl).span)), [.handRun sl]) := by
  rw [State.startQueued_jog (s := s.setQueued sl _) hj ((State.queuedAt_setQueued s sl sl _).trans (if_pos rfl)),
    State.setQueued_setQueued, State.setQueued_self hq]
  simp only [State.startJog, hk, hr, if_true, State.startMove_clear _ hx]
  rfl

/-- A jog asked for on a station without a job is carried to its start (R122). -/
theorem Takes.jogRequest {k : Kind} {dir : Dir} (hk : s.kindAt sl = some k) (h : s.jogRefused sl k = false)
    (hidle : ∀ y, (s.job y).active = false ∧ s.queuedAt y = none) (hr : (s.drive sl).hasRange = true)
    (hx : ∀ v ∈ s.pairsOf sl, ∀ b, v.bandFor sl = some b →
      crosses (s.drive sl).count (jogTarget k dir (s.drive sl).count (s.drive sl).span) (s.drive sl).span b = false) :
    Takes 6 [.jogRequest sl dir] s
      (s.startedWith sl (jogJob (s.drive sl) (jogTarget k dir (s.drive sl).count (s.drive sl).span))) := by
  have hend : Takes 1 [.endRequests [] .user] s s := .skip rfl rfl
  have hstart := State.startQueued_jogJob (dir := dir) hk (hidle sl).1 hr (hidle sl).2 hx
  have hreplace := Takes.replaceJob (o := .user) (hidle sl).1 (hidle sl).2 hstart ⟨rfl, rfl, rfl, by simp [jogJob]⟩
  refine .answer rfl ?_
  rw [show handle (.jogRequest sl dir) s = _ from State.jogRequest_idle hk h hidle]
  exact hend.append hreplace

/-! ### The command -/

/-- What a sample of the switches leaves alone, beyond what it debounces (R144). -/
theorem switchSample_passages (s : State) (pins : SwitchPins) (n : Nat) :
    SamePassages
      { s with
        liu := s.liu.sampleSwitches pins
        mvc := { s.mvc with jogs := PerSlot.tabulate (s.liu.sampleSwitches pins).jogOf } }
      (settle ((s.withSense n).sampleSwitches pins)) := by
  obtain ⟨a, fs, gs, ht⟩ := (s.withSense n).switchesTaken_eq pins
  obtain ⟨q, hq⟩ := ((s.withSense n).switchesTaken pins).jogChanges_eq (s.liu.sampleSwitches pins)
  have hlocal : AllLocal ((s.withSense n).sampleSwitches pins).2 := State.jogChanges_local _ _
  refine SamePassages.trans ?_ (settle_passages hlocal)
  have heq : ((s.withSense n).sampleSwitches pins).1 = _ := hq
  rw [heq, ht]
  exact .ofClu
    ⟨rfl, rfl, rfl, rfl, rfl, rfl, rfl, rfl, rfl, rfl, rfl, rfl, rfl, rfl, rfl, rfl, fun _ => rfl⟩ rfl rfl rfl rfl

theorem exec_switchSample {pins : SwitchPins} {n : Nat} (h : s.station = .start ∨ s.station = .sync ∨ s.station = .run) :
    exec (.switchSample pins n) s = .next (settle ((s.withSense n).sampleSwitches pins)) := by
  have hs : s.sampling = true := by rcases h with h | h | h <;> simp [State.sampling, h]
  show (if s.sampling then _ else _) = _
  rw [if_pos hs]

/-- The sample as the statement writes it, input by input. -/
theorem Liu.sampleSwitches_eq (l : Liu) (pins : SwitchPins) (next : Debounce → Bool → Debounce)
    (h : ∀ d level, next d level = debounce switchSamples d (pressed level)) :
    l.sampleSwitches pins =
      { l with
        up := ⟨next l.up.s0 pins.jup0, next l.up.s1 pins.jup1, next l.up.s2 pins.jup2⟩
        down := ⟨next l.down.s0 pins.jdn0, next l.down.s1 pins.jdn1, next l.down.s2 pins.jdn2⟩
        one := next l.one pins.one } := by
  simp only [h]
  rfl

/-- The jog states that a sample leaves, slot by slot (R121). -/
theorem Liu.tabulate_jogOf (l : Liu) (jog : Debounce → Debounce → JogState) (h : ∀ a b, jog a b = jogStateOf a.stable b.stable) :
    PerSlot.tabulate l.jogOf = ⟨jog l.up.s0 l.down.s0, jog l.up.s1 l.down.s1, jog l.up.s2 l.down.s2⟩ := by
  simp only [h]
  rfl

theorem encode_scene_kind (r : Role) (id : Nat) (scope : BitVec 6) : (encode (roleCode r) (.scene id scope)).kind ≠ kClaim := by
  have hkind : (encode (roleCode r) (.scene id scope)).kind = kScene := by cases r <;> simp [encode, Frame.kind, identOf, kScene, roleCode]
  rw [hkind]
  decide

/-- The one-touch SCENE stands in a general slot at the end of the step (R16): no report takes it out again. -/
theorem sampleSwitches_one {pins : SwitchPins} {r : Role} {id : Nat} {scope : BitVec 6} (hst : s.station = .run)
    (hr : s.role = some r) (ho : oneTouch r = some (id, scope)) (h0 : s.liu.one.stable = false)
    (h1 : (s.liu.sampleSwitches pins).one.stable = true) (hb : s.bus.busOff = none) (hw : s.clu.waiting = [])
    (hout : s.mvc.outgoing = []) (hg : s.bus.general.length < 5) :
    encode (roleCode r) (.scene id scope) ∈ (settle (s.sampleSwitches pins)).bus.general := by
  rw [State.sampleSwitches_eq]
  refine settle_framesKept (State.jogChanges_local _ _) _ ?_ (encode_scene_kind r id scope)
  obtain ⟨q, hq⟩ := (s.switchesTaken pins).jogChanges_eq (s.liu.sampleSwitches pins)
  rw [hq]
  exact State.switchesTaken_one hst hr ho h0 h1 hb hw hout hg

/-- A jog state that leaves NEUTRAL on an idle station starts its jog in the same step (R33, R121, R122). -/
theorem sampleSwitches_jog {pins : SwitchPins} {k : Kind} {dir : Dir} (hk : s.kindAt sl = some k)
    (hneutral : s.mvc.jogs.get sl = .neutral)
    (hdir : (s.liu.sampleSwitches pins).jogOf sl = match dir with | .up => .up | .down => .down)
    (hother : ∀ y, y ≠ sl → (s.liu.sampleSwitches pins).jogOf y = s.mvc.jogs.get y) (hrefused : s.jogRefused sl k = false)
    (hr : (s.drive sl).hasRange = true) (hidle : ∀ y, (s.job y).active = false ∧ s.queuedAt y = none)
    (hx : ∀ v ∈ s.pairsOf sl, ∀ b, v.bandFor sl = some b →
      crosses (s.drive sl).count (jogTarget k dir (s.drive sl).count (s.drive sl).span) (s.drive sl).span b = false) :
    ∃ u : State, u.mvc.jobs = s.mvc.jobs ∧ u.adu = s.adu ∧
      settle (s.sampleSwitches pins) =
        (u.startedWith sl (jogJob (s.drive sl) (jogTarget k dir (s.drive sl).count (s.drive sl).span))).takeActivity := by
  obtain ⟨a, fs, gs, ht⟩ := s.switchesTaken_eq pins
  have hsingle := State.jogChanges_single (s := s.switchesTaken pins) (sl := sl) (l := s.liu.sampleSwitches pins)
    (by rw [ht]; exact hother)
  have hleaves := State.jogChange_leaves (s := s.switchesTaken pins) (sl := sl) (dir := dir) (by rw [ht]; exact hneutral)
    (by rw [ht]; exact (hidle sl).2) hdir
  let u : State :=
    { s with
      liu := s.liu.sampleSwitches pins, amon := a, bus := { s.bus with general := gs }
      mvc := { s.mvc with outgoing := fs, jogs := s.mvc.jogs.set sl ((s.liu.sampleSwitches pins).jogOf sl) } }
  have heffect : s.sampleSwitches pins = (u, [.jogRequest sl dir]) := by
    rw [State.sampleSwitches_eq, hsingle, hleaves, ht]
  have htakes := Takes.jogRequest (s := u) hk hrefused hidle hr hx
  exact ⟨u, rfl, rfl, by rw [heffect]; exact htakes.settle (e := (u, _)) (by decide)⟩

/-- Settles O52: the sample itself by the debounce of each input and by what a step of local reports keeps; the jog by carrying its
request to its start; the refusals and the ends by the definitions of the jog request and of the change of a jog state. -/
theorem switchSampleDebounces : Obligations.SwitchSampleDebounces := by
  refine ⟨?_, ?_, ?_, ?_⟩
  · intro s pins n hst next up down jog
    have hnext : ∀ d level, next d level = debounce switchSamples d (pressed level) := fun d level => (debounce_switch d level).symm
    have hliu : s.liu.sampleSwitches pins = { s.liu with up := up, down := down, one := next s.liu.one pins.one } :=
      s.liu.sampleSwitches_eq pins next hnext
    have hjogs : PerSlot.tabulate (s.liu.sampleSwitches pins).jogOf =
        ⟨jog up.s0 down.s0, jog up.s1 down.s1, jog up.s2 down.s2⟩ := by
      rw [Liu.tabulate_jogOf _ jog (fun a b => (jogStateOf_eq _ _).symm), hliu]
    have hpass := switchSample_passages s pins n
    rw [hjogs, hliu] at hpass
    refine ⟨_, exec_switchSample hst, hpass, ?_⟩
    intro r id scope hrun hr ho h0 h1 hb hw hout hg
    exact sampleSwitches_one (s := s.withSense n) hrun hr ho h0 ((congrArg (·.one.stable) hliu).trans h1) hb hw hout hg
  · intro s pins n sl k dir l x go hst hk hneutral hdir hother hlevel hstill hwriting hr hidle hx
    have hx' : x = jogTarget k dir (s.drive sl).count (s.drive sl).span := by cases dir <;> rfl
    have hrefused : s.jogRefused sl k = false := by
      rw [← Bool.not_eq_true, State.jogRefused_iff]
      rcases hlevel with h | h <;> simpa [hst, h, hwriting] using hstill
    obtain ⟨u, hjobs, hadu, hsettle⟩ := sampleSwitches_jog (s := s.withSense n) hk hneutral hdir hother hrefused hr hidle
      (by rw [hx'] at hx; exact hx)
    have hslot (y : Slot) := (u.startedWith sl (jogJob (s.drive sl) x)).takeActivity_sameSlot y
    have hdrive (y : Slot) : u.drive y = s.drive y := by rw [State.drive, hadu]; rfl
    have hjob (y : Slot) : u.job y = s.job y := by rw [State.job, hjobs]; rfl
    rw [show (s.withSense n).drive sl = s.drive sl from rfl, ← hx'] at hsettle
    refine ⟨_, exec_switchSample (.inr (.inr hst)), ?_, ?_, ?_, fun y hy => ⟨?_, ?_⟩⟩
    · rw [hsettle, (hslot sl).job, State.startedWith_job, if_pos rfl]
      rfl
    · rw [hsettle, (hslot sl).pins, State.startedWith_pins, if_pos rfl]
    · rw [hsettle, (hslot sl).drive, State.startedWith_drive, if_pos rfl, hdrive]
      rfl
    · rw [hsettle, (hslot y).job, State.startedWith_job, if_neg hy.symm, hjob]
    · rw [hsettle, (hslot y).drive, State.startedWith_drive, if_neg hy.symm, hdrive]
  · intro s sl k dir hk refused
    have hiff : s.jogRefused sl k = true ↔ refused := s.jogRefused_iff
    refine ⟨fun h => State.jogRequest_refused hk (hiff.mpr h), fun h => ?_⟩
    rw [State.jogRequest_reports hk (Bool.eq_false_iff.mpr (mt hiff.mp h))]
    refine ⟨by simp, fun y => ?_⟩
    simp [asksEnd, mem_allSlots]
  · intro s sl h
    exact State.jogChange_ends h

end Sys2Proof.Machine
end

section
/-! PROOFS. Position arithmetic (chapter 2): the count range holds the count and keeps off the cut bands (O54), and the bounds of the
setpoint and of a yield's target (O55). -/

namespace Sys2Proof.Machine

/-! ### Permille positions of counts (R17, R22) -/

theorem ceilDiv_le_iff {a b x : Int} (hb : 0 < b) : ceilDiv a b ≤ x ↔ a ≤ x * b := by
  rw [ceilDiv, neg_le, Int.le_ediv_iff_mul_le hb, neg_mul, neg_le_neg_iff]

theorem le_floorDiv_iff {a b x : Int} (hb : 0 < b) : x ≤ floorDiv a b ↔ x * b ≤ a := Int.le_ediv_iff_mul_le hb

variable {c S : Int} {b : Band} {r q : Int × Int}

/-- The cut below a band is the last count whose interval lies below it (R22). -/
theorem le_belowCut_iff (hS : 0 < S) (x : Int) : x ≤ belowCut b S ↔ (staticInterval x S).high ≤ (b.x1 : Int) - 1 := by
  rw [belowCut, le_floorDiv_iff (by decide), staticInterval, ceilDiv_le_iff hS]

/-- The cut above a band is the first count whose interval lies above it (R22). -/
theorem aboveCut_le_iff (hS : 0 < S) (x : Int) : aboveCut b S ≤ x ↔ (b.x2 : Int) + 1 ≤ (staticInterval x S).low := by
  rw [aboveCut, ceilDiv_le_iff (by decide), staticInterval, le_floorDiv_iff hS]

theorem staticInterval_low_le_high (hS : 0 < S) : (staticInterval c S).low ≤ (staticInterval c S).high := by
  have hlow := (le_floorDiv_iff (a := c * 1000) hS).mp le_rfl
  have hhigh := (ceilDiv_le_iff (a := c * 1000) hS).mp le_rfl
  exact le_of_mul_le_mul_right (hlow.trans hhigh) hS

/-! ### The count range (R21 to R24) -/

/-- A range that holds a count and lies within another. -/
def Narrows (c : Int) (r q : Int × Int) : Prop := r.1 ≤ q.1 ∧ q.1 ≤ c ∧ c ≤ q.2 ∧ q.2 ≤ r.2

theorem Narrows.trans {p : Int × Int} (h : Narrows c r q) (k : Narrows c q p) : Narrows c r p :=
  ⟨h.1.trans k.1, k.2.1, k.2.2.1, k.2.2.2.trans h.2.2.2⟩

/-- What is clear of a band stays so in a narrower range. -/
theorem clearOf.narrow (h : clearOf b c S r.1 r.2) (k : Narrows c r q) : clearOf b c S q.1 q.2 :=
  ⟨fun hb => k.2.2.2.trans (h.1 hb), fun ha => (h.2 ha).trans k.1⟩

/-- The cut of one pair narrows a range, whichever side of the band the count stands on. -/
theorem pairCut_narrows (hS : 0 < S) (b : Band) (hl : r.1 ≤ c) (hh : c ≤ r.2) : Narrows c r (pairCut c S r b) := by
  simp only [pairCut]
  split
  case isTrue hb => exact ⟨le_rfl, hl, le_min hh ((le_belowCut_iff hS c).mpr (by omega)), min_le_left _ _⟩
  case isFalse =>
    split
    case isTrue ha => exact ⟨le_max_left _ _, max_le hl ((aboveCut_le_iff hS c).mpr (by omega)), hh, le_rfl⟩
    case isFalse =>
      split
      · exact ⟨hl, le_rfl, le_rfl, hh⟩
      · exact ⟨hl, le_rfl, hh, le_rfl⟩
      · exact ⟨le_rfl, hl, le_rfl, hh⟩

/-- The cut of one pair leaves a range clear of its band, where the edges of the band are in order. -/
theorem pairCut_clear (hS : 0 < S) (hb : b.x1 ≤ b.x2) : clearOf b c S (pairCut c S r b).1 (pairCut c S r b).2 := by
  have hlh := staticInterval_low_le_high (c := c) hS
  simp only [pairCut]
  split
  case isTrue hlow => exact ⟨fun _ => min_le_right _ _, fun hup => absurd hup (by omega)⟩
  case isFalse hlow =>
    split
    case isTrue hup => exact ⟨fun h => absurd h hlow, fun _ => le_max_right _ _⟩
    case isFalse hup => exact ⟨fun h => absurd h hlow, fun h => absurd h hup⟩

/-- The cuts of a list of pairs narrow a range, and leave it clear of each of their bands. -/
theorem foldl_pairCut (hS : 0 < S) (cuts : List Band) (hl : r.1 ≤ c) (hh : c ≤ r.2) :
    Narrows c r (cuts.foldl (pairCut c S) r) ∧
      ∀ b ∈ cuts, b.x1 ≤ b.x2 → clearOf b c S (cuts.foldl (pairCut c S) r).1 (cuts.foldl (pairCut c S) r).2 := by
  induction cuts generalizing r with
  | nil => exact ⟨⟨le_rfl, hl, hh, le_rfl⟩, by simp⟩
  | cons x xs ih =>
    have hx := pairCut_narrows hS x hl hh
    obtain ⟨hn, hc⟩ := ih (r := pairCut c S r x) hx.2.1 hx.2.2.1
    refine ⟨hx.trans hn, fun b hb ho => ?_⟩
    rcases List.mem_cons.mp hb with rfl | hb
    · exact (pairCut_clear hS ho).narrow hn
    · exact hc b hb ho

/-- The seated clip narrows a range, and keeps a restricted kind to the seated limit or the count (R24). -/
theorem seatedClip_narrows (k : Kind) (hl : r.1 ≤ c) (hh : c ≤ r.2) :
    Narrows c r (seatedClip k c S r) ∧
      (seatedKind k = true → (seatedClip k c S r).2 ≤ max c (floorDiv ((params k).seated * S) 1000)) := by
  unfold seatedClip
  split
  · exact ⟨⟨le_rfl, hl, le_min hh (le_max_left _ _), min_le_left _ _⟩, fun _ => min_le_right _ _⟩
  · rename_i hk
    exact ⟨⟨le_rfl, hl, hh, le_rfl⟩, fun h => absurd h hk⟩

/-- Settles O54: the base holds the count, each cut and the seated clip narrow it, and each cut leaves it clear of its band. -/
theorem rangeKeepsCountAndBands : Obligations.RangeKeepsCountAndBands := by
  intro k c S cuts seated hS hc r m
  obtain ⟨hcut, hclear⟩ := foldl_pairCut (r := baseRange k c S) hS cuts (min_le_left _ _) (le_max_left _ _)
  have hclip := seatedClip_narrows (S := S) k hcut.2.1 hcut.2.2.1
  have hlast : Narrows c (cuts.foldl (pairCut c S) (baseRange k c S)) r := by
    simp only [r, countRange]
    split
    · exact hclip.1
    · exact ⟨le_rfl, hcut.2.1, hcut.2.2.1, le_rfl⟩
  obtain ⟨hlow, hlc, hch, hhigh⟩ := hcut.trans hlast
  refine ⟨hlc, hch, hlow, hhigh, fun b hb ho => ?_, fun hs hk => ?_⟩
  · obtain ⟨hbelow, habove⟩ := (hclear b hb ho).narrow hlast
    exact ⟨fun h x hx => (le_belowCut_iff hS x).mp (hx.trans (hbelow h)), fun h x hx => (aboveCut_le_iff hS x).mp ((habove h).trans hx)⟩
  · have hr : r = seatedClip k c S (cuts.foldl (pairCut c S) (baseRange k c S)) := by simp only [r, countRange, hs, if_true]
    rw [hr]
    exact hclip.2 (match k, hk with | .slide, hk => absurd rfl hk | .back, _ | .tip, _ | .stow, _ => rfl)

/-! ### The setpoint and a yield's target (R28, R29) -/

/-- The cruise speed of every code is at least that of code 1, which exceeds creep (R9). -/
theorem creep_le_cruise (k : Kind) (code : Nat) : (params k).creep ≤ cruise k code := by
  have hcode : (2 : Int) ≤ ((max code 1 : Nat) : Int) + 1 := by omega
  rw [cruise, le_floorDiv_iff (by decide)]
  cases k <;> simp only [params] <;> omega

/-- Settles O55: the setpoint by the order of its bounds, and a yield's target by what its two cuts ask of each count. -/
theorem setpointAndYieldBounds : Obligations.SetpointAndYieldBounds := by
  refine ⟨fun k code d prev low => ?_, fun k b c S t hS ht => ⟨fun hside => ?_, fun hside => ?_⟩⟩
  · have hcruise := creep_le_cruise k code
    have hcreep := creep_pos k
    cases low <;> simp only [setpoint] <;> simp <;> omega
  · simp only [yieldTarget, hside, Option.some.injEq] at ht
    have hband : t ≤ floorDiv (((b.x1 : Int) - 20) * S) 1000 := by omega
    have hcut : t ≤ belowCut b S - (params k).coast := by omega
    rw [le_floorDiv_iff (by decide)] at hband
    exact ⟨(ceilDiv_le_iff hS).mpr hband, by rw [belowCut, floorDiv] at hcut; omega⟩
  · simp only [yieldTarget, hside, Option.some.injEq] at ht
    have hband : ceilDiv (((b.x2 : Int) + 20) * S) 1000 ≤ t := by omega
    have hcut : aboveCut b S ≤ t - (params k).coast := by omega
    rw [ceilDiv_le_iff (by decide)] at hband
    rw [aboveCut, ceilDiv_le_iff (by decide)] at hcut
    exact ⟨(le_floorDiv_iff hS).mpr hband, by linarith⟩

end Sys2Proof.Machine
end

section
/-! PROOFS. O57: every command keeps the drives sound. -/

namespace Sys2Proof.Machine

variable {s t u : State}

/-! ### Frames taken, under a relation that the reports of a step keep -/

/-- A relation between states that is carried through the frames a station takes: it holds of every update of `Evolves`, of the frame
leaving the receive queue, and of a role clash. -/
structure Carried (K : State → State → Prop) : Prop where
  trans : ∀ {s t u}, K s t → K t u → K s u
  evolves : ∀ {s t}, Evolves True s t → K s t
  popped : ∀ s : State, K s s.popRx
  clashed : ∀ s : State, K s s.clash

namespace Carried

variable {K : State → State → Prop} (hK : Carried K)
include hK

theorem refl (s : State) : K s s := hK.evolves (.refl s)

theorem activity (h : K s t) : K s t.noteActivity := hK.trans h (hK.evolves (.activity t))

theorem takeEcho (s : State) (kind : Nat) (k : PassageKind) (act : State → View → Effect)
    (h : ∀ t v, Evolves True t (act t v).1) : K s (s.takeEcho kind k act).1 := by
  unfold State.takeEcho
  split
  · exact hK.refl s
  · have hn := hK.activity (hK.popped s)
    simp only
    split
    · split
      · exact hn
      · rename_i v _
        split
        · refine hK.trans hn (hK.evolves (.trans ?_ (Effect.thenServe_evolves (h _ _) _)))
          refine .note _ _ _ fun w => ?_
          unfold View.landed
          split <;> exact ⟨rfl, rfl, rfl, rfl, rfl, rfl, rfl⟩
        · exact hn
    · exact hK.popped s

theorem takePeer (s : State) (kind : Nat) (act : State → View → Frame → Effect)
    (h : ∀ t v f, Evolves True t (act t v f).1) : K s (s.takePeer kind act).1 := by
  unfold State.takePeer
  split
  · exact hK.refl s
  · have hn := hK.activity (hK.popped s)
    simp only
    split
    · split
      · exact hK.activity (hK.trans (hK.popped s) (hK.clashed _))
      · split
        · exact hn
        · split
          · exact hK.trans hn (hK.evolves (h _ _ _))
          · exact hn
    · exact hK.popped s

theorem take (s : State) (kind : Nat) (active : Bool) (act : State → Frame → Bool → Effect)
    (h : ∀ t f b, K t (act t f b).1) : K s (s.take kind active act).1 := by
  unfold State.take
  split
  · exact hK.refl s
  · have hp := hK.popped s
    have hc := hK.trans hp (hK.clashed _)
    simp only
    split
    · split
      · split
        · exact hK.activity hc
        · exact hc
      · refine hK.trans ?_ (h _ _ _)
        split
        · exact hK.activity hp
        · exact hp
    · exact hp

end Carried

/-! The effects of the eight passage frames on the view of their pair are made of the updates of `Evolves`. -/

theorem State.viewTo_moves (s : State) (p : Nat) (st : ViewState) : Evolves True s (s.viewTo p st).1 :=
  State.viewTo_evolves s p st (.inl trivial)

theorem State.enterConflict_moves (s : State) (p : Nat) : Evolves True s (s.enterConflict p).1 := State.enterConflict_evolves s p trivial

theorem State.ownClaim_evolves (s : State) (v : View) : Evolves True s (s.ownClaim v).1 := by
  cases h : v.state <;> simp only [State.ownClaim, h] <;> first | exact .refl s | exact s.viewTo_moves _ _

theorem State.peerClaimed_evolves (s : State) (v : View) (st : Standing) : Evolves True s (s.peerClaimed v st).1 := by
  have hw : Evolves True s (s.updView v.pair (fun w => { w with waiter := some st })) :=
    .view s _ _ (fun _ => ⟨rfl, rfl, rfl, rfl⟩) (fun _ => rfl) (.inl trivial)
  cases h : v.state <;> simp only [State.peerClaimed, h] <;>
    first | exact .refl s | exact s.viewTo_moves _ _ | exact hw.trans (State.viewTo_moves _ _ _)

theorem State.ownCede_evolves (s : State) (v : View) : Evolves True s (s.ownCede v).1 := by
  cases h : v.state <;> simp only [State.ownCede, h] <;> first | exact .refl s | exact s.viewTo_moves _ _

theorem State.peerCeded_evolves (s : State) (v : View) : Evolves True s (s.peerCeded v).1 := by
  cases h : v.state <;> simp only [State.peerCeded, h] <;> first | exact .refl s | exact s.viewTo_moves _ _

theorem State.ownDecline_evolves (s : State) (v : View) : Evolves True s (s.ownDecline v).1 := by
  cases h : v.state <;> simp only [State.ownDecline, h] <;> first | exact .refl s | exact s.viewTo_moves _ _

theorem State.peerDeclined_evolves (s : State) (v : View) (r : Reason) : Evolves True s (s.peerDeclined v r).1 := by
  cases h : v.state <;> simp only [State.peerDeclined, h] <;> first | exact .refl s | exact s.viewTo_moves _ _

theorem State.ownStake_evolves (s : State) (v : View) : Evolves True s (s.ownStake v).1 := by
  unfold State.ownStake
  repeat' split
  all_goals first | exact .refl s | exact s.viewTo_moves _ _ | exact s.enterConflict_moves _

theorem State.peerStaked_evolves (s : State) (v : View) : Evolves True s (s.peerStaked v).1 := by
  unfold State.peerStaked
  repeat' split
  all_goals first
    | exact .refl s
    | exact s.viewTo_moves _ _
    | exact s.enterConflict_moves _
    | exact (Evolves.job s v.slot _).trans (State.viewTo_moves _ _ _)

/-! ### Updates that keep the drives sound -/

/-- An update under which sound drives stay sound. -/
def KeepsDrives (s t : State) : Prop := s.DrivesSound → t.DrivesSound

theorem KeepsDrives.trans (h : KeepsDrives s t) (k : KeepsDrives t u) : KeepsDrives s u := k ∘ h

/-- An update that leaves the drive records as they were. -/
theorem KeepsDrives.of_adu (h : t.adu = s.adu) : KeepsDrives s t := fun hs sl => by rw [State.drive, h]; exact hs sl

theorem KeepsDrives.refl (s : State) : KeepsDrives s s := .of_adu rfl

theorem Evolves.keepsDrives (h : Evolves True s t) : KeepsDrives s t := h.drivesSound

/-- One drive record replaced by one that is sound where the former was. -/
theorem KeepsDrives.setDrive {sl : Slot} {d : Drive} (h : (s.drive sl).sound → d.sound) : KeepsDrives s (s.setDrive sl d) := by
  intro hs x
  rw [State.drive_setDrive]
  split
  · exact h (hs sl)
  · exact hs x

/-- A drive that is off is sound in every axis state, whatever its brake timer and its runs. -/
theorem Drive.off_sound (d : Drive) (st : AxisState) (b : Timer) (a : AfterBrake) (r w h : Option Run) :
    ({ d.off with axis := st, brakeTimer := b, afterBrake := a, run := r, waitingRun := w, handed := h } : Drive).sound :=
  ⟨⟨le_rfl, Int.zero_le_ofNat 1000, fun _ => ⟨rfl, rfl⟩⟩, ⟨fun _ => ⟨rfl, rfl, rfl, rfl⟩, fun h => Bool.noConfusion h, le_rfl⟩,
    fun _ => ⟨rfl, rfl, rfl⟩⟩

/-- A sound drive stays so when its stall and blanking timers stop. -/
theorem Drive.sound.timed {d : Drive} (h : d.sound) {x y : Timer} {b : Bool}
    (hx : d.axis ≠ .driving → x = none) (hy : d.axis ≠ .driving → y = none) :
    ({ d with stallTimer := x, blankingTimer := y, stallHeld := b } : Drive).sound :=
  ⟨h.1, h.2.1, fun ha => ⟨(h.2.2 ha).1, hx ha, hy ha⟩⟩

theorem State.setReferenced_keepsDrives (s : State) (sl : Slot) (b : Bool) : KeepsDrives s (s.setReferenced sl b) := by
  intro hs x
  rw [State.setReferenced_drive]
  split
  · exact hs sl
  · exact hs x

theorem Drive.still_sound (d : Drive) : d.still.sound := d.off_sound _ _ _ _ _ _

theorem State.clash_keepsDrives (s : State) : KeepsDrives s s.clash := by
  unfold State.clash
  split
  · intro _ sl
    rw [State.drive, State.enterStandstill, PerSlot.get_tabulate]
    exact Drive.still_sound _
  · exact .of_adu rfl

theorem keepsDrives_carried : Carried KeepsDrives where
  trans := KeepsDrives.trans
  evolves := Evolves.keepsDrives
  popped _ := .of_adu rfl
  clashed := State.clash_keepsDrives

/-! ### The first part of each command -/

theorem State.applyStatus_adu (s : State) (r : Role) (c : StatusContent) : (s.applyStatus r c).1.adu = s.adu := by
  unfold State.applyStatus
  split
  · rfl
  · simp only
    split
    · exact State.noteActivity_adu _
    · rfl

theorem State.statusFrame_adu (s : State) (f : Frame) (echo : Bool) : (s.statusFrame f echo).1.adu = s.adu := by
  unfold State.statusFrame
  split
  · split
    · rfl
    · exact s.applyStatus_adu _ _
  · rfl

theorem State.gatewayTo_adu (s : State) (g : Gateway) : (s.gatewayTo g).1.adu = s.adu := by
  unfold State.gatewayTo
  simp only
  split
  all_goals split
  all_goals first | rfl | exact State.noteActivity_adu _

theorem State.vehicleFrame_adu (s : State) (f : Frame) : (s.vehicleFrame f).1.adu = s.adu := by
  unfold State.vehicleFrame
  split
  · split
    · exact s.gatewayTo_adu _
    · rfl
  · rfl

theorem State.sceneFrame_evolves (s : State) (f : Frame) : Evolves True s (s.sceneFrame f).1 := by
  unfold State.sceneFrame
  repeat' split
  all_goals first | exact .refl s | exact State.takeScene_evolves s _ _

theorem State.stopFrame_evolves (s : State) (f : Frame) : Evolves True s (s.stopFrame f).1 := by
  unfold State.stopFrame
  repeat' split
  all_goals first | exact .refl s | exact State.endAll_evolves s _

theorem State.learnFrame_evolves (s : State) (f : Frame) : Evolves True s (s.learnFrame f).1 := by
  unfold State.learnFrame
  repeat' split
  all_goals first | exact .refl s | exact State.takeLearn_evolves s _

theorem State.waitExpired_adu (s : State) (v : View) : (s.waitExpired v).1.adu = s.adu := by
  unfold State.waitExpired
  simp only
  repeat' split
  all_goals rfl

/-- A drive record that has counted one hall pulse, before its stop point is looked at (R88, R99, R104). -/
def Drive.pulsed (d : Drive) : Drive :=
  { d with
    count := nextCount d.dir d.count, pulses := { d.pulses with p0 := d.pulses.p0 + 1 }
    run := d.run.map (fun r => if d.axis = .driving then { r with pulsesLeft := r.pulsesLeft.map (· - 1) } else r)
    stallTimer := if d.axis = .driving then some Config.stallTime else d.stallTimer
    stallHeld := if d.axis = .driving then false else d.stallHeld }

/-- A hall pulse counted: the record written, and the drive off at the stop point (R88, R91). -/
theorem State.countPulse_eq (s : State) (sl : Slot) :
    s.countPulse sl =
      if (s.drive sl).axis = .driving ∧ (s.drive sl).pulsed.arrived = true then
        State.driveOff ((s.setDrive sl (s.drive sl).pulsed).writeRetained sl) sl
          (match (s.drive sl).pulsed.run with | some r => afterStop r | none => .idle)
      else (s.setDrive sl (s.drive sl).pulsed).writeRetained sl := by
  cases hr : (s.drive sl).run <;> simp only [State.countPulse, Drive.pulsed, hr, Option.map_none, Option.map_some]

theorem State.countPulse_keepsDrives (s : State) (sl : Slot) : KeepsDrives s (s.countPulse sl) := by
  have hcount : KeepsDrives s ((s.setDrive sl (s.drive sl).pulsed).writeRetained sl) := by
    refine KeepsDrives.trans (.setDrive (d := (s.drive sl).pulsed) fun h => ⟨h.1, h.2.1, fun ha => ?_⟩) (.of_adu rfl)
    exact ⟨(h.2.2 ha).1, (if_neg ha).trans (h.2.2 ha).2.1, (h.2.2 ha).2.2⟩
  rw [State.countPulse_eq]
  split
  · exact hcount.trans (State.driveOff_evolves _ sl _).keepsDrives
  · exact hcount

theorem State.pulse_keepsDrives (s : State) (sl : Slot) : KeepsDrives s (s.pulse sl).1 := by
  refine (s.countPulse_keepsDrives sl).trans (Evolves.keepsDrives ?_)
  unfold State.pulse
  simp only
  split
  · exact .rebuilt _ sl
  · exact (State.markPassed_evolves _ sl).trans (.rebuilt _ sl)

theorem State.stall_keepsDrives (s : State) (sl : Slot) : KeepsDrives s (s.stall sl).1 := by
  have hoff (t : State) (a : AfterBrake) : KeepsDrives t (t.driveOff sl a) := (State.driveOff_evolves t sl a).keepsDrives
  have hhome : KeepsDrives s (s.setDrive sl { s.drive sl with count := 0 }) := .setDrive id
  unfold State.stall
  simp only
  split
  · exact hoff s _
  · split
    case h_4 => exact (State.rest_evolves s sl .fault none (by decide)).keepsDrives
    case h_5 => exact (hhome.trans (State.setReferenced_keepsDrives _ sl true)).trans (hoff _ _)
    case h_6 =>
      split
      · exact hoff s _
      · refine KeepsDrives.trans (hhome.trans (.of_adu ?_)) (hoff _ _)
        unfold State.learnHome
        simp only
        split <;> rfl
    all_goals exact hoff s _

theorem State.stallExpiry_keepsDrives (s : State) (sl : Slot) : KeepsDrives s (s.stallExpiry sl).1 := by
  unfold State.stallExpiry
  simp only
  split
  · split
    · exact .setDrive fun h => h.timed (fun _ => rfl) fun ha => (h.2.2 ha).2.2
    · exact s.stall_keepsDrives sl
  · exact .refl s

theorem State.blankingExpiry_keepsDrives (s : State) (sl : Slot) : KeepsDrives s (s.blankingExpiry sl).1 := by
  have hb : KeepsDrives s (s.setDrive sl { s.drive sl with blankingTimer := none }) :=
    .setDrive fun h => h.timed (fun ha => (h.2.2 ha).2.1) fun _ => rfl
  unfold State.blankingExpiry
  simp only
  split
  · split
    · exact hb.trans (State.stall_keepsDrives _ sl)
    · exact hb
  · exact .refl s

theorem State.jobExpiry_keepsDrives (s : State) (sl : Slot) : KeepsDrives s (s.jobExpiry sl).1 := by
  refine Evolves.keepsDrives ?_
  unfold State.jobExpiry
  simp only
  repeat' split
  all_goals first
    | exact .refl s
    | exact State.driveOff_evolves s sl _
    | exact State.rest_evolves s sl .fault none (by decide)

theorem State.brakeExpiry_keepsDrives (s : State) (sl : Slot) : KeepsDrives s (s.brakeExpiry sl).1 := by
  unfold State.brakeExpiry
  simp only
  split
  · refine KeepsDrives.trans (.setDrive (sl := sl) (d := { s.drive sl with brakeTimer := none }) id) ?_
    generalize s.setDrive sl { s.drive sl with brakeTimer := none } = t
    have hended : KeepsDrives t (t.setDrive sl { t.drive sl with run := none, afterBrake := .idle }) := .setDrive id
    repeat' split
    all_goals first
      | exact hended
      | exact (State.beginRelief_evolves t sl).keepsDrives
      | exact (State.testRun_evolves t sl _).keepsDrives
      | exact (State.beginWaiting_evolves t sl).keepsDrives
      | exact (State.endRun_evolves t sl _).keepsDrives
      | exact (State.rest_evolves t sl .idle none (by decide)).keepsDrives
  · exact .refl s

theorem State.writeComplete_keepsDrives (s : State) (sl : Slot) (n : Nat) : KeepsDrives s (s.writeComplete sl n).1 := by
  refine KeepsDrives.trans (t := s.recordSpan sl n) (.of_adu rfl) ?_
  generalize hr : s.recordSpan sl n = t
  simp only [State.writeComplete, hr]
  exact KeepsDrives.trans (.setDrive (sl := sl) (d := { t.drive sl with span := n, disabled := false }) id)
    (State.setReferenced_keepsDrives _ sl true)

theorem State.sampleSwitches_adu (s : State) (pins : SwitchPins) : (s.sampleSwitches pins).1.adu = s.adu := by
  obtain ⟨_, _, _, ht⟩ := s.switchesTaken_eq pins
  obtain ⟨_, hj⟩ := (s.switchesTaken pins).jogChanges_eq (s.liu.sampleSwitches pins)
  rw [State.sampleSwitches_eq, hj, ht]

theorem State.sampleOccupancy_adu (s : State) (pins : OccupancyPins) : (s.sampleOccupancy pins).1.adu = s.adu := by
  unfold State.sampleOccupancy
  simp only
  split
  · rfl
  · split <;> exact State.noteActivity_adu _

theorem DrivesSound.underReset (r : Rcs) (q : List Instr) : (State.underReset r q).DrivesSound := fun sl => by
  rw [State.drive, State.underReset, PerSlot.get_all]
  exact Drive.blank.off_sound .noAxis none .idle none none none

theorem Rcs.startDrive_sound (x : Rcs) (r : Role) (sl : Slot) : (x.startDrive r sl).sound := by
  unfold Rcs.startDrive
  split
  · exact Drive.blank.off_sound .noAxis none .idle none none none
  · exact Drive.off_sound { Drive.blank with span := _, disabled := _, count := _, referenced := _ } .idle none .idle none none none

theorem State.started_sound (s : State) (r : Role) (sw : SwitchPins) (oc : OccupancyPins) : (s.started r sw oc).DrivesSound :=
  fun sl => by rw [State.started_drive]; exact Rcs.startDrive_sound _ r sl

/-! ### Every command -/

/-- A command that answers a state whose drives are sound, where they were. -/
def EndsSound (s : State) (o : Host.Outcome State Fault Refusal) : Prop := ∀ t, o = .next t → KeepsDrives s t

theorem EndsSound.next (h : KeepsDrives s t) : EndsSound s (.next t) := fun _ hu => by cases hu; exact h

theorem EndsSound.stay (s : State) : EndsSound s (.next s) := .next (.refl s)

/-- A command that leaves the drive records alone. -/
theorem EndsSound.direct (h : t.adu = s.adu) : EndsSound s (.next t) := .next (.of_adu h)

/-- A command whose step is carried to its end. -/
theorem EndsSound.settled {e : Effect} (h : KeepsDrives s e.1) : EndsSound s (.next (settle e)) :=
  .next (h.trans (settle_evolves e (.inl trivial)).keepsDrives)

/-- A command that acts where its event can happen, and changes nothing elsewhere. -/
theorem EndsSound.ite {P : Prop} [Decidable P] {o : Host.Outcome State Fault Refusal} (h : EndsSound s o) :
    EndsSound s (if P then o else .next s) := by
  split
  · exact h
  · exact .stay s

theorem execResetRelease_sound (a : StrapPins) (v : Nat) (b : SwitchPins) (o : OccupancyPins) (s : State) :
    EndsSound s (execResetRelease a v b o s) := by
  refine .ite ?_
  split
  · exact .next fun _ => DrivesSound.underReset s.rcs s.pending
  · rename_i r _
    exact .settled fun _ => (State.takeSample_evolves (loose := True) ((s.started r b o).withSense v) _).drivesSound
      (s.started_sound r b o)

theorem exec_keepsDrives (c : Instr) (s : State) : EndsSound s (exec c s) := by
  have hK := keepsDrives_carried
  cases c with
  | resetRelease a v b o => exact execResetRelease_sound a v b o s
  | resetAssertion => exact .next fun _ => DrivesSound.underReset _ _
  | syncEntry => exact .ite (.direct rfl)
  | syncTimerExpiry => exact .ite (.settled (State.syncExit_evolves s trivial).keepsDrives)
  | ownClaimEcho v => exact .settled (hK.takeEcho (s.withSense v) _ _ _ State.ownClaim_evolves)
  | peerClaim v =>
    refine .settled (hK.takePeer (s.withSense v) _ _ fun t w f => ?_)
    split
    · exact t.peerClaimed_evolves w _
    · exact .refl t
  | ownCedeEcho v => exact .settled (hK.takeEcho (s.withSense v) _ _ _ State.ownCede_evolves)
  | peerCede v => exact .settled (hK.takePeer (s.withSense v) _ _ fun t w _ => t.peerCeded_evolves w)
  | ownDeclineEcho v => exact .settled (hK.takeEcho (s.withSense v) _ _ _ State.ownDecline_evolves)
  | peerDecline v =>
    refine .settled (hK.takePeer (s.withSense v) _ _ fun t w f => ?_)
    split
    · exact t.peerDeclined_evolves w _
    · exact .refl t
  | ownStakeEcho v => exact .settled (hK.takeEcho (s.withSense v) _ _ _ State.ownStake_evolves)
  | peerStake v => exact .settled (hK.takePeer (s.withSense v) _ _ fun t w _ => t.peerStaked_evolves w)
  | statusTaken v => exact .settled (hK.take (s.withSense v) _ _ _ fun t f b => .of_adu (t.statusFrame_adu f b))
  | vehicleTaken v => exact .settled (hK.take (s.withSense v) _ _ _ fun t f _ => .of_adu (t.vehicleFrame_adu f))
  | sceneTaken v => exact .settled (hK.take (s.withSense v) _ _ _ fun t f _ => (t.sceneFrame_evolves f).keepsDrives)
  | stopTaken v => exact .settled (hK.take (s.withSense v) _ _ _ fun t f _ => (t.stopFrame_evolves f).keepsDrives)
  | learnTaken v => exact .settled (hK.take (s.withSense v) _ _ _ fun t f _ => (t.learnFrame_evolves f).keepsDrives)
  | resultTaken => exact .settled (hK.take s _ _ _ fun t _ _ => .refl t)
  | frameReceived f =>
    refine .ite ?_
    repeat' split
    all_goals exact .direct rfl
  | transmissionAttempt => exact .ite (.direct rfl)
  | arbitrationLost => exact .ite (.direct rfl)
  | attemptError noAck =>
    refine .ite ?_
    simp only
    split <;> exact .direct rfl
  | frameCompleted =>
    show EndsSound s (execFrameCompleted s)
    unfold execFrameCompleted
    split
    · exact .stay s
    · exact .direct rfl
  | busOffTimerExpiry v =>
    refine .ite (.next (.trans ?_ (State.assignSlots_evolves _ _).keepsDrives))
    exact .trans (.of_adu rfl) (settle_evolves ((s.withSense v).rejoined, s.rejoinReports) (.inl trivial)).keepsDrives
  | generalSlotAssignment => exact .next (State.assignSlot_evolves s).keepsDrives
  | statusTimerExpiry => exact .ite (.direct rfl)
  | expectancyTimerExpiry peer v =>
    show EndsSound s (execExpectancyTimerExpiry peer v s)
    unfold execExpectancyTimerExpiry
    split
    · exact .stay s
    · exact .ite (.settled (.of_adu rfl))
  | clashWindowExpiry => exact .ite (.direct rfl)
  | holdTimerExpiry v => exact .ite (.settled (.of_adu ((s.withSense v).gatewayTo_adu _)))
  | waitTimerExpiry pair v =>
    show EndsSound s (execWaitTimerExpiry pair v s)
    unfold execWaitTimerExpiry
    split
    · exact .stay s
    · exact .ite (.settled (.of_adu ((s.withSense v).waitExpired_adu _)))
  | controlInterval v => exact .ite (.settled (.of_adu rfl))
  | hallPulse sl v => exact .ite (.settled ((s.withSense v).pulse_keepsDrives sl))
  | brakeTimerExpiry sl v => exact .settled ((s.withSense v).brakeExpiry_keepsDrives sl)
  | stallTimerExpiry sl v => exact .settled ((s.withSense v).stallExpiry_keepsDrives sl)
  | blankingTimerExpiry sl v => exact .settled ((s.withSense v).blankingExpiry_keepsDrives sl)
  | jobTimerExpiry sl v => exact .settled ((s.withSense v).jobExpiry_keepsDrives sl)
  | calibrationWriteCompletion sl v =>
    show EndsSound s (execCalibrationWriteCompletion sl v s)
    unfold execCalibrationWriteCompletion
    split
    · exact .stay s
    · exact .settled ((s.withSense v).writeComplete_keepsDrives sl _)
  | quietTimerExpiry =>
    refine .ite ?_
    split <;> exact .direct rfl
  | sampleTimerExpiry v => exact .ite (.settled (State.takeSample_evolves (s.withSense v) _).keepsDrives)
  | switchSample pins v => exact .ite (.settled (.of_adu ((s.withSense v).sampleSwitches_adu pins)))
  | occupancySample pins v => exact .ite (.settled (.of_adu ((s.withSense v).sampleOccupancy_adu pins)))
  | alwaysOnSupplyLoss => exact .direct rfl

/-- Settles O57: the first part of each command keeps the drives sound, and every report of its step does (`Evolves.drivesSound`). -/
theorem stepKeepsDrivesSound : Obligations.StepKeepsDrivesSound := by
  intro s t hs ht
  rw [step] at ht
  split at ht
  · cases ht
    exact hs
  · exact exec_keepsDrives _ _ t ht hs

end Sys2Proof.Machine
end

section
/-! PROOFS. O60 fails: nothing in its hypotheses has the edges of a band in order. -/

namespace Sys2Proof.Machine

/-! ### A station with a band whose edges are crossed -/

/-- A band whose upper edge lies below its lower one: a count of 300 in a span of 1000 stands below the one and above the other. -/
def crossedBand : Band := ⟨500, 100⟩

/-- M60 in RUN with one pair of that band, whose SLIDE stands REFERENCED at 300 of 1000 and has no count envelope yet (R87); its next
command is a control interval. -/
def crossedStation : State :=
  { State.underReset { Rcs.initial with retained := ⟨⟨300, true⟩, ⟨0, false⟩, ⟨0, false⟩⟩ } [.controlInterval 0] with
    station := .run, role := some .m60
    clu := { views := [newView 0 .s0 crossedBand (.peer .fl .back ⟨0, 150⟩)], envelopes := .all .frozen, due := [] }
    adu := ⟨{ Drive.blank with axis := .idle, referenced := true, count := 300, span := 1000 }, .blank, .blank⟩ }

/-- It meets every hypothesis of O60. -/
theorem crossedStation_sound : crossedStation.DrivesSound ∧ crossedStation.EnvelopesSound ∧ crossedStation.StoresSound := by
  refine ⟨fun sl => ?_, ⟨by decide, fun sl _ => ?_⟩, fun sl => ?_⟩
  · cases sl <;> simp only [Drive.sound, Drive.outputsSafe, Drive.loopSound, Drive.timersSound] <;> decide
  · cases sl <;> trivial
  · cases sl <;> simp only [State.StoreSound] <;> decide

/-- Its control interval builds the count range, which R22 cuts below the band alone: the lower limit stays at the margin, 10, though
the first count above the band is 101. -/
theorem crossedStation_step : ∃ t, step crossedStation = .next t ∧ t.kindAt .s0 = some .slide ∧ (t.drive .s0).count = 300 ∧
    (t.drive .s0).span = 1000 ∧ t.clu.envelopes.get .s0 = .limits 10 499 ∧ crossedBand ∈ t.unheldBands .s0 :=
  ⟨_, rfl, by decide⟩

/-- Refutes O60: the range of an axis that stands both below `x1` and above `x2` of a band would have to be cut on both sides
(`clearOf`), and R22's cut takes the first side that applies. The clearance table has no such band (R10), but the statement speaks of
every state. -/
theorem not_stepKeepsEnvelopesAndStores : ¬ Obligations.StepKeepsEnvelopesAndStores := by
  intro h
  obtain ⟨t, ht, hk, hc, hs, he, hb⟩ := crossedStation_step
  have hsound : t.EnvelopeSound .s0 := (h _ t crossedStation_sound ht).1.2 .s0 (by rw [hk]; rfl)
  rw [State.EnvelopeSound, he, hc, hs] at hsound
  obtain ⟨-, -, -, hclear⟩ := hsound
  exact absurd ((hclear _ hb).2 (by decide)) (by decide)

end Sys2Proof.Machine
end

section
/-! PROOFS. O38: the STATUS that the expiry of the status timer builds, field by field. -/

namespace Sys2Proof.Machine

/-! ### Bit masks gathered from a list (R73, R155) -/

theorem getLsbD_ofNat_two_pow {n k : Nat} (hk : k < n) (i : Nat) : (BitVec.ofNat n (2 ^ i)).getLsbD k = true ↔ i = k := by
  rw [BitVec.getLsbD_ofNat, Nat.testBit_two_pow, decide_eq_true hk, Bool.true_and, decide_eq_true_iff]

/-- A mask that each element of a list may set one bit of has the bits so set, beside those it began with. -/
theorem foldl_setBits {α : Type} {n k : Nat} (hk : k < n) (P : α → Bool) (bit : α → Nat) (l : List α) (m : BitVec n) :
    (l.foldl (fun m x => if P x then m ||| BitVec.ofNat n (2 ^ bit x) else m) m).getLsbD k = true ↔
      m.getLsbD k = true ∨ ∃ x ∈ l, P x = true ∧ bit x = k := by
  induction l generalizing m with
  | nil => simp
  | cons x xs ih =>
    rw [List.foldl_cons, ih, List.exists_mem_cons_iff, ← or_assoc]
    refine or_congr_left ?_
    split
    · rename_i hP
      rw [BitVec.getLsbD_or, Bool.or_eq_true, getLsbD_ofNat_two_pow hk, hP]
      simp
    · rename_i hP
      simp [hP]

/-- The hold set has the bit of each peer pair that the station holds (R155). -/
theorem State.holdSet_getLsbD (s : State) {k : Nat} (hk : k < 24) :
    s.holdSet.getLsbD k = true ↔
      ∃ v ∈ s.clu.views, v.pair = k ∧ v.peerRole.isSome = true ∧ (v.state = .own ∨ v.state = .ownWait) := by
  rw [State.holdSet, foldl_setBits hk (fun v : View => v.peerRole.isSome && (v.state == .own || v.state == .ownWait)) View.pair]
  simp only [Bool.and_eq_true, Bool.or_eq_true, beq_iff_eq, BitVec.ofNat_eq_ofNat, BitVec.getLsbD_zero, Bool.false_eq_true, false_or]
  exact exists_congr fun v => and_congr_right fun _ => and_comm

/-! ### The STATUS placed -/

theorem Bif.statusAttempt_iff (b : Bif) : b.statusAttempt = true ↔ ∃ g, b.attempt = some g ∧ g.kind = kStatus := by
  simp [Bif.statusAttempt, Option.any_eq_true]

theorem State.sender_of_role {s : State} {r : Role} (h : s.role = some r) : s.sender = roleCode r := by rw [State.sender, h]

theorem State.slotStatus_some {s : State} {sl : Slot} (h : (s.kindAt sl).isSome = true) :
    s.slotStatus sl =
      { axis := (s.drive sl).axis, lock := (s.drive sl).lock, referenced := (s.drive sl).referenced
        disabled := (s.drive sl).disabled, dir := (s.drive sl).dir, interval := s.occupiedAt sl } := by
  obtain ⟨k, hk⟩ := Option.isSome_iff_exists.mp h
  rw [State.slotStatus, hk]

/-- Settles O38: the STATUS is `State.statusContent`, its hold set read bit by bit, and the interface places it by its attempt. -/
theorem statusTimerBuildsStatus : Obligations.StatusTimerBuildsStatus := by
  intro s r htimer hst hr
  have htaking : s.taking = true := by rcases hst with h | h <;> simp [State.taking, h]
  refine ⟨s.sendStatus, _, s.statusContent, ?_, rfl, ?_, rfl, rfl, rfl, ?_, ?_, rfl, rfl, rfl, fun k hk => s.holdSet_getLsbD hk, rfl,
    fun sl hk => ?_⟩
  · exact if_pos ⟨htimer, htaking⟩
  · have hperiod : statusPeriod s.amon.mode = if s.amon.mode = .active then 20 else 100 := by cases s.amon.mode <;> rfl
    simp only [State.sendStatus, State.sender_of_role hr, hperiod, Bif.placeStatus, Bif.statusAttempt_iff]
  · simp [State.statusContent, State.unheard]
  · simp [State.statusContent, State.conflictFlag]
  · rw [State.statusContent, PerSlot.get_tabulate, State.slotStatus_some hk]
    exact ⟨rfl, rfl, rfl, rfl, rfl, rfl⟩

end Sys2Proof.Machine
end

section
/-! PROOFS. Rules of the drive units that the statements of chapter 5 share: where a run may drive, what its entry into DRIVING and its
rest make of the drive record, and the end of the brake period (O45). -/

namespace Sys2Proof.Machine

variable {s : State} {sl : Slot} {k : Kind} {r : Run} {lo hi x : Int}

/-! ### Values set again -/

@[simp] theorem State.setDrive_setDrive (s : State) (sl : Slot) (a b : Drive) : (s.setDrive sl a).setDrive sl b = s.setDrive sl b := by
  simp [State.setDrive]

theorem State.setDriveSet_self {b : Bool} (h : s.smon.driveSet.get sl = b) : s.setDriveSet sl b = s := by
  rw [← h, State.setDriveSet, PerSlot.set_get_self]

theorem Smon.driveSetEmpty_eq_false {m : Smon} (h : m.driveSet.get sl = true) : m.driveSetEmpty = false := by
  cases sl <;> simp_all [Smon.driveSetEmpty, PerSlot.get]

@[simp] theorem State.drive_withSense (s : State) (n : Nat) (sl : Slot) : (s.withSense n).drive sl = s.drive sl := rfl

theorem State.supplyBars_eq_false (h : s.smon.level = .ok ∨ s.smon.level = .low) : s.supplyBars = false := by
  rcases h with h | h <;> simp [State.supplyBars, h]

theorem State.supplyBars_eq_true (h : s.smon.level = .critical ∨ s.smon.level = .unknown) : s.supplyBars = true := by
  rcases h with h | h <;> simp [State.supplyBars, h]

/-! ### Where a run may drive (R26, R27) -/

theorem dist_eq_abs (a b : Int) : dist a b = |a - b| := Int.natCast_natAbs _

theorem beyond_iff (dir : Dir) (stop c : Int) : beyond dir stop c = true ↔ match dir with | .up => c < stop | .down => stop < c := by
  cases dir <;> exact decide_eq_true_iff

/-- The stop point of a run to a target on an axis with a count envelope. -/
theorem State.runStop_limits (hk : s.kindAt sl = some k) (he : s.clu.envelopes.get sl = .limits lo hi) (ht : r.target = some x)
    (lock : Bool) : s.runStop sl r lock = some (stopPoint r.dir x lo hi (coastAllowance k lock)) := by
  simp only [State.runStop, hk, he, ht]

/-- Such a run may drive where that stop point lies beyond the count. -/
theorem State.mayDrive_limits (hk : s.kindAt sl = some k) (he : s.clu.envelopes.get sl = .limits lo hi) (ht : r.target = some x)
    (lock : Bool) : s.mayDrive sl r lock = beyond r.dir (stopPoint r.dir x lo hi (coastAllowance k lock)) (s.drive sl).count := by
  simp only [State.mayDrive, he, State.runStop_limits hk he ht]

/-! ### Entry into DRIVING, and rest (R86, R89, R91) -/

theorem State.driveOff_eq (s : State) (sl : Slot) (a : AfterBrake) : s.driveOff sl a = s.setDrive sl ((s.drive sl).braked a) := rfl

/-- Entry into DRIVING of an axis that is not IDLE and has stayed in the drive set (R90, R101). -/
theorem State.enterDriving_braking (hk : s.kindAt sl = some k) (ha : (s.drive sl).axis ≠ .idle)
    (hd : s.smon.driveSet.get sl = true) :
    s.enterDriving sl r =
      (s.setDrive sl ((s.drive sl).entered r k (runDistance r (s.drive sl).count) (s.runStop sl r false)), []) := by
  simp only [State.enterDriving, hk, if_neg ha, Smon.driveSetEmpty_eq_false hd, Bool.false_eq_true, if_false]
  exact congrArg (·, []) (State.setDriveSet_self (s := s.setDrive sl _) hd)

/-- A run whose stop point lies beyond the count drives, where the supply allows it (R27, R98). -/
theorem State.testRun_drives (hk : s.kindAt sl = some k) (he : s.clu.envelopes.get sl = .limits lo hi) (ht : r.target = some x)
    (hs : s.smon.level = .ok ∨ s.smon.level = .low)
    (hb : beyond r.dir (stopPoint r.dir x lo hi (coastAllowance k false)) (s.drive sl).count = true) :
    s.testRun sl r = s.enterDriving sl r := by
  simp only [State.testRun, hk, State.mayDrive_limits hk he ht, hb, if_true, State.tryDriving, State.supplyBars_eq_false hs,
    Bool.false_eq_true, if_false]

theorem State.openRun_eq (h : r.origin ≠ .learn) : s.openRun sl r = s := if_neg h

/-- A run that is no LEARN's and whose target is not the count begins with the test of R27. -/
theorem State.beginRun_eq (ho : r.origin ≠ .learn) (ht : r.target ≠ some ((s.drive sl).count : Int)) :
    s.beginRun sl r = s.testRun sl r := by
  rw [State.beginRun, if_neg ht, State.openRun_eq ho]

/-- An axis that is not IDLE comes to rest: the drive off and out of the drive set. -/
theorem State.rest_eq (st : AxisState) (run : Option Run) (h : (s.drive sl).axis ≠ .idle) :
    s.rest sl st run = (s.setDrive sl { (s.drive sl).atRest st with run := run }).setDriveSet sl false := by
  rw [State.rest, if_neg (fun hi => h hi.1)]
  rfl

/-! ### A run taken from the MVC (R89) -/

/-- The station with the run that the MVC has handed to an axis taken from it. -/
def State.taken (s : State) (sl : Slot) : State := s.setDrive sl { s.drive sl with handed := none }

theorem State.taken_drive (s : State) (sl : Slot) : (s.taken sl).drive sl = { s.drive sl with handed := none } := by
  rw [State.taken, State.drive_setDrive, if_pos rfl]

theorem State.takeRun_idle (h : (s.drive sl).axis = .idle) : s.takeRun sl r = (s.taken sl).beginRun sl r := by
  have haxis : ((s.taken sl).drive sl).axis = .idle := by rw [State.taken_drive]; exact h
  simp only [State.takeRun, show s.setDrive sl { s.drive sl with handed := none } = s.taken sl from rfl, haxis]

theorem State.takeRun_braking (h : (s.drive sl).axis = .braking) : s.takeRun sl r = (s.taken sl).takeBraking sl r := by
  have haxis : ((s.taken sl).drive sl).axis = .braking := by rw [State.taken_drive]; exact h
  simp only [State.takeRun, show s.setDrive sl { s.drive sl with handed := none } = s.taken sl from rfl, haxis]

/-- A run taken in the brake period, in the last direction and with nothing waiting, joins it. -/
theorem State.takeBraking_eq (hw : (s.drive sl).waitingRun = none) (hd : r.dir = (s.drive sl).dir) :
    s.takeBraking sl r = (s.openRun sl r).joinBraking sl r := by
  simp [State.takeBraking, State.dropWaiting, hw, Effect.andThen, hd]

/-- Whether a run may drive depends on the drive record by its count alone. -/
theorem State.mayDrive_setDrive {d : Drive} {lock : Bool} (h : d.count = (s.drive sl).count) :
    (s.setDrive sl d).mayDrive sl r lock = s.mayDrive sl r lock := by
  unfold State.mayDrive
  rw [State.drive_setDrive, if_pos rfl, h]
  rfl

/-! ### The end of the brake period (R91) -/

/-- The station with an axis's brake period over. -/
def State.brakeOver (s : State) (sl : Slot) : State := s.setDrive sl { s.drive sl with brakeTimer := none }

theorem State.brakeOver_drive (s : State) (sl : Slot) : (s.brakeOver sl).drive sl = { s.drive sl with brakeTimer := none } := by
  rw [State.brakeOver, State.drive_setDrive, if_pos rfl]

/-- A BRAKING axis whose brake timer runs. -/
def Drive.inBrakePeriod (d : Drive) : Prop := d.axis = .braking ∧ d.brakeTimer.isSome = true

theorem State.brakeOver_axis (h : (s.drive sl).inBrakePeriod) : ((s.brakeOver sl).drive sl).axis = .braking := by
  rw [State.brakeOver_drive]
  exact h.1

/-- What the end of a brake period does, by what is to follow it: the end of the run, the relief run, or the waiting run, which goes
before a present run that is still active. -/
theorem State.brakeExpiry_cases (h : (s.drive sl).inBrakePeriod) :
    ((s.drive sl).waitingRun = none →
      ((s.drive sl).afterBrake = .idle → s.brakeExpiry sl = ((s.brakeOver sl).rest sl .idle none, [])) ∧
      (∀ o, (s.drive sl).afterBrake = .ended o → s.brakeExpiry sl = (s.brakeOver sl).endRun sl (.outcome o)) ∧
      ((s.drive sl).afterBrake = .refDone → s.brakeExpiry sl = (s.brakeOver sl).endRun sl .refComplete)) ∧
    (∀ r, (s.drive sl).afterBrake = .relief → (s.drive sl).run = some r → s.brakeExpiry sl = (s.brakeOver sl).beginRelief sl) ∧
    (∀ w, (s.drive sl).waitingRun = some w →
      (s.drive sl).afterBrake = .idle ∨ (s.drive sl).afterBrake = .retest ∨ (s.drive sl).afterBrake = .joined →
      s.brakeExpiry sl = (s.brakeOver sl).beginWaiting sl) := by
  unfold State.brakeExpiry State.brakeOver
  generalize s.drive sl = d at h ⊢
  obtain ⟨⟩ := d
  rename_i run _ _ _ _ _
  refine ⟨?_, ?_, ?_⟩
  · rintro rfl
    exact ⟨by rintro rfl; exact if_pos h, by rintro o rfl; exact if_pos h, by rintro rfl; exact if_pos h⟩
  · rintro r rfl rfl
    exact if_pos h
  · rintro w rfl (rfl | rfl | rfl)
    · exact if_pos h
    all_goals cases run <;> exact if_pos h

/-- An axis in its brake period that ends a run with nothing behind it. -/
theorem State.brakeOver_rest (h : (s.drive sl).inBrakePeriod) :
    (s.brakeOver sl).rest sl .idle none = (s.setDrive sl ((s.drive sl).atRest .idle)).setDriveSet sl false := by
  rw [State.rest_eq .idle none (by rw [State.brakeOver_axis h]; decide), State.brakeOver_drive, State.brakeOver,
    State.setDrive_setDrive]
  rfl

/-- The run of a relief on an axis with a count range: 20 counts back at creep (R100, R101). -/
def reliefRun (d : Drive) : Run :=
  { origin := .relief, dir := match d.dir with | .up => .down | .down => .up, speed := .creep, secondLeg := false
    target := some (match d.dir with | .up => (d.count : Int) - 20 | .down => (d.count : Int) + 20), pulsesLeft := none }

theorem State.beginRelief_eq (h : (s.drive sl).hasRange = true) :
    s.beginRelief sl = (s.setJob sl { s.job sl with present := .relief }).testRun sl (reliefRun (s.drive sl)) := by
  simp only [State.beginRelief, h, if_true, reliefRun]
  cases (s.drive sl).dir <;> rfl

/-! ### What follows the brake period (O45) -/

theorem State.runEnded_inactive {e : RunEnd} (h : (s.job sl).active = false) : s.runEnded sl e = (s, []) := by
  simp [State.runEnded, h]

theorem State.takeActivity_quiet (h : s.amon.activityDue = false) : s.takeActivity = s := by simp [State.takeActivity, h]

/-- A brake period that ends, as its command has it. -/
theorem exec_brakeTimerExpiry (s : State) (sl : Slot) (n : Nat) :
    exec (.brakeTimerExpiry sl n) s = .next (settle ((s.withSense n).brakeExpiry sl)) := rfl

/-- An axis in its brake period, with no job and nothing behind the end of its run, comes to rest (R91). -/
theorem settle_brakeExpiry_rests (h : (s.drive sl).inBrakePeriod) (hw : (s.drive sl).waitingRun = none)
    (ha : (s.drive sl).afterBrake = .idle ∨ ∃ o, (s.drive sl).afterBrake = .ended o) (hj : (s.job sl).active = false)
    (hq : s.amon.activityDue = false) :
    settle (s.brakeExpiry sl) = (s.setDrive sl ((s.drive sl).atRest .idle)).setDriveSet sl false := by
  obtain ⟨hidle, hended, -⟩ := (State.brakeExpiry_cases h).1 hw
  rcases ha with ha | ⟨o, ha⟩
  · rw [hidle ha, State.brakeOver_rest h]
    exact settle_quiet _ hq
  · rw [hended o ha, State.endRun, State.brakeOver_rest h]
    generalize hu : (s.setDrive sl ((s.drive sl).atRest .idle)).setDriveSet sl false = u
    have hj' : (u.job sl).active = false := by rw [← hu]; exact hj
    have hend : Takes 1 [.runEnded sl (.outcome o)] u u := .skip rfl (State.runEnded_inactive (e := .outcome o) hj')
    rw [hend.settle (e := (u, _)) (by decide)]
    exact State.takeActivity_quiet (by rw [← hu]; exact hq)

/-- A run to a target, taken at the end of the brake period, drives where its stop point lies beyond the count (R27, R90, R101). -/
theorem settle_testRun_braking (hk : s.kindAt sl = some k) (ha : (s.drive sl).axis = .braking)
    (he : s.clu.envelopes.get sl = .limits lo hi) (ht : r.target = some x) (hs : s.smon.level = .ok ∨ s.smon.level = .low)
    (hb : beyond r.dir (stopPoint r.dir x lo hi (coastAllowance k false)) (s.drive sl).count = true)
    (hd : s.smon.driveSet.get sl = true) (hq : s.amon.activityDue = false) :
    settle (s.testRun sl r) = s.setDrive sl ((s.drive sl).entered r k |x - (s.drive sl).count|
      (some (stopPoint r.dir x lo hi (coastAllowance k false)))) := by
  have hdist : runDistance r (s.drive sl).count = |x - (s.drive sl).count| := by simp only [runDistance, ht, dist_eq_abs]
  rw [State.testRun_drives hk he ht hs hb, State.enterDriving_braking hk (by rw [ha]; decide) hd, hdist,
    State.runStop_limits hk he ht]
  exact settle_quiet _ hq

/-- A job record as it goes on after its REFERENCE run, over no band (R119). -/
def Job.continued (j : Job) (dir : Dir) (x : Int) : Job :=
  { j with
    active := true, present := .main, requested := some x, target := some x, dir := dir, speed := .code 2, entries := [],
    firstFailure := none, outcome := none, handed := false, cause := none }

theorem State.continueScene_clear {p : Nat}
    (hc : ∀ v ∈ s.pairsOf sl, ∀ b, v.bandFor sl = some b →
      crosses (s.drive sl).count (sceneCount k p (s.drive sl).span) (s.drive sl).span b = false) :
    s.continueScene sl k p =
      ((s.setPin sl false).setJob sl
        ((s.job sl).continued (if ((s.drive sl).count : Int) < sceneCount k p (s.drive sl).span then .up else .down)
          (sceneCount k p (s.drive sl).span)), [.handRun sl]) :=
  State.startMove_clear _ hc

theorem Job.theRun_continued {j : Job} {id : Nat} (h : j.origin = .scene id) (dir : Dir) :
    (j.continued dir x).theRun =
      { origin := .scene, dir := dir, target := some x, speed := .code 2, secondLeg := false, pulsesLeft := none } := by
  simp [Job.theRun, Job.continued, h]

/-- A REFERENCE run reported complete: the scene's job goes on in its record, and its run is handed (R112, R119). -/
theorem Takes.refComplete {p id : Nat} (hk : s.kindAt sl = some k) (hj : (s.job sl).active = true)
    (ho : (s.job sl).origin = .scene id) (hp : (s.job sl).permille = some p)
    (hc : ∀ v ∈ s.pairsOf sl, ∀ b, v.bandFor sl = some b →
      crosses (s.drive sl).count (sceneCount k p (s.drive sl).span) (s.drive sl).span b = false) :
    Takes 2 [.runEnded sl .refComplete] s
      (s.startedWith sl
        ((s.job sl).continued (if ((s.drive sl).count : Int) < sceneCount k p (s.drive sl).span then .up else .down)
          (sceneCount k p (s.drive sl).span))) := by
  have hrun : handle (.runEnded sl .refComplete) s = s.continueScene sl k p := by simp [handle, State.runEnded, hj, hk, hp]
  refine .answer rfl ?_
  rw [hrun, State.continueScene_clear hc]
  have hstart := s.handRun_started (sl := sl)
    (j := (s.job sl).continued (if ((s.drive sl).count : Int) < sceneCount k p (s.drive sl).span then .up else .down)
      (sceneCount k p (s.drive sl).span)) ⟨rfl, rfl, rfl, by simp [Job.continued, ho]⟩
  exact .answer rfl (by rw [show handle (.handRun sl) _ = _ from hstart]; exact .nil _)

/-- Settles O45: each clause is the case of the brake period's end that its hypotheses pick (`State.brakeExpiry_cases`), carried
to the end of the step. -/
theorem brakePeriodEnds : Obligations.BrakePeriodEnds := by
  refine ⟨?_, ?_, ?_, ?_, ?_⟩
  · intro s sl n haxis htimer hw ha hj hq
    rw [exec_brakeTimerExpiry, settle_brakeExpiry_rests (s := s.withSense n) ⟨haxis, htimer⟩ hw ha hj hq]
    rfl
  · intro s sl n k r lo hi hk haxis htimer hw ha hr hrange he hs hd hq d back x stop hahead relief
    have hstop : some stop = some (stopPoint relief.dir x lo hi (coastAllowance k false)) := by
      simp only [stop, relief]
      cases back <;> rfl
    have hrun : reliefRun d = relief := by
      simp only [reliefRun, relief, back, x]
      cases d.dir <;> rfl
    have hdist : |x - d.count| = 20 := by
      simp only [x]
      cases back <;> simp
    rw [exec_brakeTimerExpiry, (State.brakeExpiry_cases (s := s.withSense n) ⟨haxis, htimer⟩).2.1 r ha hr,
      State.beginRelief_eq (by rw [State.brakeOver_drive]; exact hrange), State.brakeOver_drive]
    generalize hu : ((s.withSense n).brakeOver sl).setJob sl _ = u
    have hud : u.drive sl = { d with brakeTimer := none } := by rw [← hu]; exact State.brakeOver_drive _ sl
    have hset := settle_testRun_braking (s := u) (sl := sl) (r := relief) (x := x) (k := k) (lo := lo) (hi := hi) (by rw [← hu]; exact hk)
      (by rw [hud]; exact haxis) (by rw [← hu]; exact he) rfl (by rw [← hu]; exact hs)
      (by rw [hud, beyond_iff, ← Option.some.inj hstop]; exact hahead) (by rw [← hu]; exact hd) (by rw [← hu]; exact hq)
    rw [← hstop, hud] at hset
    refine congrArg _ ((congrArg (fun r => settle (u.testRun sl r)) hrun).trans (hset.trans ?_))
    rw [hdist, ← hu]
    exact State.setDrive_setDrive ((s.withSense n).setJob sl { s.job sl with present := .relief }) sl _ _
  · intro s sl n k w x lo hi hk haxis htimer hw ha ho ht hx he hs hd hq d stop hahead
    have hstop : stop = stopPoint w.dir x lo hi (coastAllowance k false) := by
      simp only [stop]
      cases w.dir <;> rfl
    generalize hu : ((s.withSense n).brakeOver sl).setDrive sl { d with brakeTimer := none, waitingRun := none } = u
    have hud : u.drive sl = { d with brakeTimer := none, waitingRun := none } := by rw [← hu, State.drive_setDrive, if_pos rfl]
    have hset := settle_testRun_braking (s := u) (sl := sl) (r := w) (x := x) (k := k) (lo := lo) (hi := hi) (by rw [← hu]; exact hk)
      (by rw [hud]; exact haxis) (by rw [← hu]; exact he) ht (by rw [← hu]; exact hs)
      (by rw [hud, beyond_iff, ← hstop]; exact hahead) (by rw [← hu]; exact hd) (by rw [← hu]; exact hq)
    have hbegin : ((s.withSense n).brakeOver sl).beginWaiting sl = u.testRun sl w := by
      have hw' : (((s.withSense n).brakeOver sl).drive sl).waitingRun = some w := by rw [State.brakeOver_drive]; exact hw
      rw [State.beginWaiting, hw']
      simp only
      rw [State.brakeOver_drive]
      refine Eq.trans ?_ (State.beginRun_eq ho (by rw [hud, ht]; exact fun h => hx (Option.some.inj h)))
      rw [← hu]
      rfl
    rw [exec_brakeTimerExpiry, (State.brakeExpiry_cases (s := s.withSense n) ⟨haxis, htimer⟩).2.2 w hw ha, hbegin, hset, hud, ← hstop,
      ← hu, State.setDrive_setDrive, State.brakeOver, State.setDrive_setDrive]
    rfl
  · intro s sl n k id p hk haxis htimer hw ha hj ho hp hq hc d m x dir
    have href := ((State.brakeExpiry_cases (s := s.withSense n) ⟨haxis, htimer⟩).1 hw).2.2 ha
    generalize hu : ((s.withSense n).setDrive sl (d.atRest .idle)).setDriveSet sl false = u
    have hud : u.drive sl = d.atRest .idle := by rw [← hu]; exact (State.drive_setDrive _ sl sl _).trans (if_pos rfl)
    have huj : u.job sl = s.job sl := by rw [← hu]; rfl
    have htakes := Takes.refComplete (s := u) (sl := sl) (k := k) (by rw [← hu]; exact hk) (by rw [huj]; exact hj)
      (by rw [huj]; exact ho) (by rw [huj]; exact hp) (by rw [hud, ← hu]; exact hc)
    rw [exec_brakeTimerExpiry, href, State.endRun, State.brakeOver_rest (s := s.withSense n) ⟨haxis, htimer⟩]
    rw [show ((s.withSense n).setDrive sl (((s.withSense n).drive sl).atRest .idle)).setDriveSet sl false = u from hu,
      htakes.settle (e := (u, _)) (by decide), State.takeActivity_quiet (by rw [← hu]; exact hq)]
    rw [huj, hud, State.startedWith, Job.theRun_continued ho, hud]
    have hjob : ({ (s.job sl).continued dir x with handed := true } : Job) =
        { s.job sl with
          present := .main, requested := some x, target := some x, dir := dir, speed := .code 2, entries := [],
          firstFailure := none, outcome := none, handed := true, cause := none } := by
      simp [Job.continued, hj]
    refine congrArg Host.Outcome.next (Eq.trans ?_ (congrArg
      (fun j => ((({ s with vsense := n, smon := { s.smon with driveSet := s.smon.driveSet.set sl false } } : State).setPin sl
        false).setJob sl j).setDrive sl _) hjob))
    rw [← hu]
    exact State.setDrive_setDrive (((((s.withSense n).setDriveSet sl false).setPin sl false).setJob sl _)) sl _ _
  · intro s sl r haxis htimer hw hdir ho d
    have hd : (s.taken sl).drive sl = d := State.taken_drive s sl
    have htake : s.takeRun sl r = (s.taken sl).joinBraking sl r := by
      rw [State.takeRun_braking haxis, State.takeBraking_eq (by rw [hd]; exact hw) (by rw [hd]; exact hdir), State.openRun_eq ho]
    have hmay : (s.taken sl).mayDrive sl r false = s.mayDrive sl r false := State.mayDrive_setDrive rfl
    rw [htake, State.joinBraking, hmay, hd]
    refine ⟨fun h hlevel => ?_, fun h => ?_⟩
    · have hbars : (s.taken sl).supplyBars = true := State.supplyBars_eq_true hlevel
      rw [if_pos h, State.tryDriving, if_pos hbars, hd, if_pos ⟨haxis, htimer⟩]
      exact congrArg (·, _) (State.setDrive_setDrive s sl _ _)
    · rw [h, if_neg (by decide)]
      exact congrArg (·, _) (State.setDrive_setDrive s sl _ _)

end Sys2Proof.Machine
end

section
/-! PROOFS. A control interval under views that ask for nothing (R94): the CLU's tests of the pairs, and the steps of the axes that
neither drive nor hold nor take a run. -/

namespace Sys2Proof.Machine

variable {s t u : State} {sl : Slot} {k : Kind} {r : Run}

/-! ### What such an interval changes -/

/-- An update of the envelopes, the drives and the move controller alone. -/
def Adjusted (s t : State) : Prop := ∃ es a m, t = { s with clu := { s.clu with envelopes := es }, adu := a, mvc := m }

theorem Adjusted.refl (s : State) : Adjusted s s := ⟨_, _, _, rfl⟩

theorem Adjusted.trans (h : Adjusted s t) (g : Adjusted t u) : Adjusted s u := by
  obtain ⟨es, a, m, rfl⟩ := h
  obtain ⟨es', a', m', rfl⟩ := g
  exact ⟨es', a', m', rfl⟩

theorem Adjusted.setDrive (s : State) (sl : Slot) (d : Drive) : Adjusted s (s.setDrive sl d) := ⟨_, _, _, rfl⟩

theorem Adjusted.markPassed (s : State) (sl : Slot) : Adjusted s (s.markPassed sl) := by
  obtain ⟨es, h | h⟩ := s.markPassed_eq sl <;> rw [h]
  · exact ⟨_, _, _, rfl⟩
  · exact .refl s

theorem Adjusted.foldl_markPassed (l : List Slot) (s : State) : Adjusted s (l.foldl State.markPassed s) := by
  induction l generalizing s with
  | nil => exact .refl s
  | cons x xs ih => exact (Adjusted.markPassed s x).trans (ih _)

@[simp] theorem State.foldl_markPassed_drive (l : List Slot) (s : State) (sl : Slot) : (l.foldl State.markPassed s).drive sl = s.drive sl := by
  induction l generalizing s with
  | nil => rfl
  | cons x xs ih => simp [ih]

theorem Adjusted.views (h : Adjusted s t) : t.clu.views = s.clu.views := by obtain ⟨_, _, _, rfl⟩ := h; rfl
theorem Adjusted.role (h : Adjusted s t) : t.role = s.role := by obtain ⟨_, _, _, rfl⟩ := h; rfl
theorem Adjusted.smon (h : Adjusted s t) : t.smon = s.smon := by obtain ⟨_, _, _, rfl⟩ := h; rfl
theorem Adjusted.amon (h : Adjusted s t) : t.amon = s.amon := by obtain ⟨_, _, _, rfl⟩ := h; rfl
theorem Adjusted.rcs (h : Adjusted s t) : t.rcs = s.rcs := by obtain ⟨_, _, _, rfl⟩ := h; rfl
theorem Adjusted.station (h : Adjusted s t) : t.station = s.station := by obtain ⟨_, _, _, rfl⟩ := h; rfl
theorem Adjusted.vsense (h : Adjusted s t) : t.vsense = s.vsense := by obtain ⟨_, _, _, rfl⟩ := h; rfl
theorem Adjusted.view? (h : Adjusted s t) (p : Nat) : t.view? p = s.view? p := by obtain ⟨_, _, _, rfl⟩ := h; rfl
theorem Adjusted.kindAt (h : Adjusted s t) (sl : Slot) : t.kindAt sl = s.kindAt sl := by obtain ⟨_, _, _, rfl⟩ := h; rfl

/-- The envelope that the CLU builds for an axis follows its own drive record alone. -/
theorem Adjusted.envelopeFor (h : Adjusted s t) (hd : t.drive sl = s.drive sl) : t.envelopeFor sl = s.envelopeFor sl := by
  obtain ⟨_, _, _, rfl⟩ := h
  unfold State.envelopeFor
  rw [hd]
  rfl

/-! ### The tests of the pairs -/

theorem State.ViewsQuiet.of_views (h : s.ViewsQuiet) (hv : t.clu.views = s.clu.views) : t.ViewsQuiet := by
  rw [State.ViewsQuiet, hv]
  exact h

/-- A list of reports that each find nothing to do. -/
theorem Takes.skips {α : Type} (l : List α) (f : α → Report) (hl : ∀ x ∈ l, (f x).isLate = false ∧ handle (f x) s = (s, [])) :
    Takes l.length (l.map f) s s := by
  induction l with
  | nil => exact .nil s
  | cons x xs ih =>
    rw [List.forall_mem_cons] at hl
    exact (Takes.skip hl.1.1 hl.1.2).append (ih hl.2)

theorem State.ViewsQuiet.retest (h : s.ViewsQuiet) (p : Nat) : s.retest p = (s, []) := by
  unfold State.retest
  split
  · rfl
  · rename_i v hv
    exact if_neg (h.2 v (List.mem_of_find?_eq_some hv)).2.2.1

theorem State.ViewsQuiet.arbitrate (h : s.ViewsQuiet) (p : Nat) : s.arbitrate p = (s, []) := by
  have hnone (x : SelfAxis) : s.arbitrateAxis p x = (s, []) := by
    unfold State.arbitrateAxis
    split
    · rfl
    · rename_i v hv
      obtain ⟨ha, hb, -⟩ := h.2 v (List.mem_of_find?_eq_some hv)
      cases x <;> simp [View.claimOf, ha, hb]
  unfold State.arbitrate
  split
  · rfl
  · split
    · rfl
    · simp [Effect.andThen, hnone]

/-- A pair that the station does not hold is not released; its progress is marked (R31, R53, R63). -/
theorem State.ViewsQuiet.release (h : s.ViewsQuiet) (p : Nat) : ∃ l : List Slot, s.release p = (l.foldl State.markPassed s, []) := by
  unfold State.release
  split
  · exact ⟨[], rfl⟩
  · rename_i v hv
    obtain ⟨-, -, -, hown, hwait, ha, hb⟩ := h.2 v (List.mem_of_find?_eq_some hv)
    refine ⟨v.ownSlots, ?_⟩
    simp only
    split
    · exact if_neg (fun hc => hc.1.elim hown hwait)
    · rename_i sb b ho
      have hholder : v.selfHolder = none := by
        rw [View.selfHolder, ho]
        cases hst : v.state <;> first | rfl | exact absurd hst ha | exact absurd hst hb
      rw [hholder]

theorem State.ViewsQuiet.releases (ps : List Nat) (h : s.ViewsQuiet) :
    ∃ t, Takes ps.length (ps.map Report.release) s t ∧ Adjusted s t ∧ ∀ sl, t.drive sl = s.drive sl := by
  induction ps generalizing s with
  | nil => exact ⟨s, .nil s, .refl s, fun _ => rfl⟩
  | cons p ps ih =>
    obtain ⟨l, hl⟩ := h.release p
    have hadj := Adjusted.foldl_markPassed l s
    obtain ⟨t, ht, ha, hd⟩ := ih (h.of_views hadj.views)
    refine ⟨t, .append (.answer rfl ?_) ht, hadj.trans ha, fun sl => by rw [hd, State.foldl_markPassed_drive]⟩
    rw [show handle (.release p) s = _ from hl]
    exact .nil _

/-! ### An axis's steps (R94) -/

/-- The station as an axis begins its steps of a control interval: its envelope built, and the bands it has left passed. -/
def State.intervalBegun (s : State) (sl : Slot) : State := (s.setEnvelope sl (s.envelopeFor sl)).markPassed sl

theorem State.intervalBegun_adjusted (s : State) (sl : Slot) : Adjusted s (s.intervalBegun sl) :=
  Adjusted.trans ⟨_, _, _, rfl⟩ (.markPassed _ sl)

@[simp] theorem State.intervalBegun_drive (s : State) (sl x : Slot) : (s.intervalBegun sl).drive x = s.drive x :=
  State.markPassed_drive _ sl x

theorem State.intervalBegun_envelope (s : State) (sl : Slot) : (s.intervalBegun sl).clu.envelopes.get sl = s.envelopeFor sl := by
  rw [State.intervalBegun, State.markPassed_clu]
  exact (PerSlot.get_set _ sl sl _).trans (if_pos rfl)

/-- A drive record with its pulse history moved on (R88). -/
def Drive.shifted (d : Drive) : Drive := { d with pulses := ⟨0, d.pulses.p0, d.pulses.p1, d.pulses.p2⟩ }

theorem State.shiftPulses_drive (s : State) (sl x : Slot) :
    (s.shiftPulses sl).drive x = if sl = x then (s.drive sl).shifted else s.drive x := State.drive_setDrive s sl x _

/-- A drive that neither drives nor holds nor takes a run. -/
def Drive.passive (d : Drive) : Prop := d.axis ≠ .driving ∧ d.axis ≠ .holding ∧ d.handed = none

theorem State.aduControl_passive (hk : (s.kindAt sl).isSome = true) (h : (s.drive sl).passive) :
    s.aduControl sl = ((s.intervalBegun sl).shiftPulses sl, []) := by
  obtain ⟨k, hk⟩ := Option.isSome_iff_exists.mp hk
  obtain ⟨hdriving, hholding, hhanded⟩ := h
  rw [← s.intervalBegun_drive sl sl] at hdriving hholding hhanded
  simp only [State.aduControl, hk, show (s.setEnvelope sl (s.envelopeFor sl)).markPassed sl = s.intervalBegun sl from rfl, hhanded]
  cases ha : ((s.intervalBegun sl).drive sl).axis <;> first | rfl | exact absurd ha hdriving | exact absurd ha hholding

theorem State.aduControl_driving (hk : s.kindAt sl = some k) (ha : (s.drive sl).axis = .driving) (hh : (s.drive sl).handed = none)
    (hr : (s.drive sl).run = some r) :
    s.aduControl sl =
      ((if (s.intervalBegun sl).mayDrive sl r (s.drive sl).lock then (s.intervalBegun sl).driveLoop sl k r
        else (s.intervalBegun sl).driveOff sl (afterStop r)).shiftPulses sl, []) := by
  simp only [State.aduControl, hk, show (s.setEnvelope sl (s.envelopeFor sl)).markPassed sl = s.intervalBegun sl from rfl,
    State.intervalBegun_drive, ha, hh, hr]
  split <;> rfl

theorem State.aduControl_handed (hk : (s.kindAt sl).isSome = true) (hh : (s.drive sl).handed = some r)
    (hw : s.rcs.writing.get sl = none) :
    s.aduControl sl =
      (((s.intervalBegun sl).takeRun sl r).1.shiftPulses sl, ((s.intervalBegun sl).takeRun sl r).2) := by
  obtain ⟨k, hk⟩ := Option.isSome_iff_exists.mp hk
  have hwrite : (s.intervalBegun sl).writingAt sl = false := by
    rw [State.writingAt, (s.intervalBegun_adjusted sl).rcs, hw]; rfl
  simp only [State.aduControl, hk, show (s.setEnvelope sl (s.envelopeFor sl)).markPassed sl = s.intervalBegun sl from rfl,
    State.intervalBegun_drive, hh, hwrite, Bool.false_eq_true, if_false]

/-- The drive of a slot after a control interval in which it is passive: its pulse history moves on, where the slot holds an axis. -/
def State.shiftedAt (s : State) (sl : Slot) : Drive := if (s.kindAt sl).isSome = true then (s.drive sl).shifted else s.drive sl

theorem Takes.passive (h : (s.drive sl).passive) :
    ∃ t, Takes 1 [.aduControl sl] s t ∧ Adjusted s t ∧ ∀ x, t.drive x = if sl = x then s.shiftedAt sl else s.drive x := by
  cases hk : s.kindAt sl with
  | none =>
    refine ⟨s, .skip rfl ?_, .refl s, fun x => ?_⟩
    · simp only [handle, State.aduControl, hk]
    · rw [State.shiftedAt, hk]
      split
      · rename_i hx
        rw [← hx]; rfl
      · rfl
  | some k =>
    have hs : (s.kindAt sl).isSome = true := by rw [hk]; rfl
    refine ⟨(s.intervalBegun sl).shiftPulses sl, .answer rfl ?_, (s.intervalBegun_adjusted sl).trans (.setDrive _ sl _), fun x => ?_⟩
    · rw [show handle (.aduControl sl) s = _ from State.aduControl_passive hs h]
      exact .nil _
    · rw [State.shiftPulses_drive, State.shiftedAt, if_pos hs, State.intervalBegun_drive, State.intervalBegun_drive]

/-- The steps of several passive axes. -/
theorem Takes.passives (l : List Slot) (hl : l.Nodup) (h : ∀ x ∈ l, (s.drive x).passive) :
    ∃ t, Takes l.length (l.map Report.aduControl) s t ∧ Adjusted s t ∧
      ∀ x, t.drive x = if x ∈ l then s.shiftedAt x else s.drive x := by
  induction l generalizing s with
  | nil => exact ⟨s, .nil s, .refl s, fun x => by simp⟩
  | cons y ys ih =>
    rw [List.nodup_cons] at hl
    rw [List.forall_mem_cons] at h
    obtain ⟨t, ht, ha, hd⟩ := Takes.passive h.1
    have hother (x : Slot) (hx : x ∈ ys) : t.drive x = s.drive x := by
      rw [hd, if_neg]
      rintro rfl
      exact hl.1 hx
    obtain ⟨u, hu, ha', hd'⟩ := ih hl.2 (s := t) (fun x hx => by rw [hother x hx]; exact h.2 x hx)
    refine ⟨u, ht.append hu, ha.trans ha', fun x => ?_⟩
    rw [hd']
    by_cases hx : x ∈ ys
    · rw [if_pos hx, if_pos (List.mem_cons_of_mem _ hx), State.shiftedAt, State.shiftedAt, ha.kindAt, hother x hx]
    · rw [if_neg hx, hd]
      by_cases hy : y = x
      · subst hy
        rw [if_pos rfl, if_pos (List.mem_cons_self ..)]
      · rw [if_neg hy, if_neg (by simp [hx, Ne.symm hy])]

/-! ### The whole interval -/

/-- The end of reports that are all local is made of the strict updates of `Evolves`. -/
theorem Takes.evolves {n : Nat} {rs : List Report} (h : Takes n rs s t) (hl : AllLocal rs) : Evolves False s t := by
  have hc := h 0 [] []
  rw [List.append_nil, Nat.zero_add] at hc
  rw [show t = cascade n rs [] s from hc.symm]
  exact cascade_evolves n rs [] s (.inr ⟨hl, AllLocal.nil⟩)

/-- What an axis's own steps of the interval make of the station: its drive record, the supply monitor and the activity monitor. -/
structure ActsAs (s t : State) (sl : Slot) (d : Drive) (m : Smon) (a : Amon) : Prop where
  drive : ∀ x, t.drive x = if sl = x then d else s.drive x
  role : t.role = s.role
  smon : t.smon = m
  amon : t.amon = a

/-- The reports of an interval behind the tests of CONFLICT. -/
def State.intervalTests (s : State) : List Report :=
  s.pairs.map Report.arbitrate ++ s.pairs.map Report.release ++ allSlots.map Report.aduControl

theorem State.intervalTests_local (s : State) : AllLocal s.intervalTests := fun x hx => by
  simp only [State.intervalTests, List.mem_append, List.mem_map] at hx
  obtain (⟨_, _, rfl⟩ | ⟨_, _, rfl⟩) | ⟨_, _, rfl⟩ := hx <;> rfl

/-- The steps of the three axes, of which one acts and the others are passive. -/
theorem Takes.slots {n : Nat} {d : Drive} {m : Smon} {a : Amon} (hothers : ∀ y, y ≠ sl → (s.drive y).passive)
    (hact : ∀ u, Adjusted s u → u.drive sl = s.drive sl → ∃ v, Takes n [.aduControl sl] u v ∧ ActsAs u v sl d m a) :
    ∃ k t, k ≤ n + 3 ∧ Takes k (allSlots.map Report.aduControl) s t ∧ t.drive sl = d ∧ (∀ y, y ≠ sl → t.drive y = s.shiftedAt y) ∧
      t.smon = m ∧ t.amon = a := by
  obtain ⟨pre, post, hsplit⟩ := List.append_of_mem (mem_allSlots sl)
  obtain ⟨hpre, hrest, hdisj⟩ := List.nodup_append.mp (hsplit ▸ (by decide : allSlots.Nodup))
  obtain ⟨hslPost, hpost⟩ := List.nodup_cons.mp hrest
  have hslPre : sl ∉ pre := fun h => hdisj sl h sl (List.mem_cons_self ..) rfl
  have hpostPre (x : Slot) (hx : x ∈ post) : x ∉ pre := fun h => hdisj x h x (List.mem_cons_of_mem _ hx) rfl
  have hlength : pre.length + post.length ≤ 3 := by
    have := congrArg List.length hsplit
    simp only [allSlots, List.length_append, List.length_cons, List.length_nil] at this
    omega
  obtain ⟨t1, h1, ha1, hd1⟩ := Takes.passives pre hpre fun x hx => hothers x fun h => hslPre (h ▸ hx)
  obtain ⟨t2, h2, hacts⟩ := hact t1 ha1 (by rw [hd1, if_neg hslPre])
  have hd2 (x : Slot) (hx : x ≠ sl) : t2.drive x = if x ∈ pre then s.shiftedAt x else s.drive x := by
    rw [hacts.drive, if_neg hx.symm, hd1]
  have hkind (x : Slot) : t2.kindAt x = s.kindAt x := by
    rw [State.kindAt, hacts.role]
    exact ha1.kindAt x
  have hbehind (x : Slot) (hx : x ∈ post) : t2.drive x = s.drive x := by
    rw [hd2 x fun h => hslPost (h ▸ hx), if_neg (hpostPre x hx)]
  obtain ⟨t3, h3, ha3, hd3⟩ := Takes.passives post hpost fun x hx => by
    rw [hbehind x hx]; exact hothers x fun h => hslPost (h ▸ hx)
  have htakes : Takes (post.length + n + pre.length) (allSlots.map Report.aduControl) s t3 := by
    rw [hsplit, List.map_append, List.map_cons, ← List.singleton_append]
    exact h1.append (h2.append h3)
  refine ⟨_, t3, by omega, htakes, ?_, fun y hy => ?_, ha3.smon.trans hacts.smon, ha3.amon.trans hacts.amon⟩
  · rw [hd3, if_neg hslPost, hacts.drive, if_pos rfl]
  · rw [hd3]
    split
    · rename_i hy'
      rw [State.shiftedAt, hkind, hbehind y hy', State.shiftedAt]
    · rename_i hy'
      rw [hd2 y hy, if_pos]
      have : y ∈ pre ++ sl :: post := hsplit ▸ mem_allSlots y
      simpa [hy, hy'] using this

/-- A control interval under quiet views in which one axis acts and the others are passive. -/
theorem settle_interval {n : Nat} {d : Drive} {m : Smon} {a : Amon} (hq : s.ViewsQuiet) (hn : n ≤ 100)
    (hothers : ∀ y, y ≠ sl → (s.drive y).passive)
    (hact : ∀ u, Adjusted s u → u.drive sl = s.drive sl → ∃ v, Takes n [.aduControl sl] u v ∧ ActsAs u v sl d m a) :
    ∃ t : State, settle (s, s.intervalReports) = t.takeActivity ∧ SamePassages s t.takeActivity ∧ t.drive sl = d ∧
      (∀ y, y ≠ sl → t.drive y = s.shiftedAt y) ∧ t.smon = m ∧ t.amon = a := by
  have hpairs : s.pairs.length ≤ 10 := by simpa [State.pairs] using hq.1
  have hretest : Takes s.pairs.length (s.pairs.map Report.retest) s s := Takes.skips _ _ fun p _ => ⟨rfl, hq.retest p⟩
  have harb : Takes s.pairs.length (s.pairs.map Report.arbitrate) s s := Takes.skips _ _ fun p _ => ⟨rfl, hq.arbitrate p⟩
  obtain ⟨u, hrel, hu, hud⟩ := hq.releases s.pairs
  obtain ⟨k, t, hk, hslots, hd, hy, hm, ha⟩ := Takes.slots (s := u) (sl := sl) (n := n) (d := d) (m := m) (a := a)
    (fun y hy => by rw [hud]; exact hothers y hy)
    (fun v hv hvd => hact v (hu.trans hv) (by rw [hvd, hud]))
  have htests : Takes (k + (s.pairs.length + s.pairs.length)) s.intervalTests s t := (harb.append hrel).append hslots
  have hall : Takes (k + (s.pairs.length + s.pairs.length) + s.pairs.length) s.intervalReports s t := by
    have := hretest.append htests
    rwa [State.intervalTests, ← List.append_assoc, ← List.append_assoc] at this
  refine ⟨t, hall.settle (e := (s, s.intervalReports)) (by simp only [reportBound]; omega),
    ((htests.evolves s.intervalTests_local).trans (.wake t)).passages, hd, fun y hne => ?_, hm, ha⟩
  rw [hy y hne, State.shiftedAt, hu.kindAt, hud, State.shiftedAt]

/-- The command of a control interval, in START, SYNC and RUN. -/
theorem exec_controlInterval {n : Nat} (h : s.station = .start ∨ s.station = .sync ∨ s.station = .run) :
    exec (.controlInterval n) s = .next (settle (s.withSense n, (s.withSense n).intervalReports)) :=
  if_pos (by rcases h with h | h | h <;> simp [State.awake, h])

end Sys2Proof.Machine
end

section
/-! PROOFS. The speed loop of a driven axis (O42). -/

namespace Sys2Proof.Machine

variable {s t u : State} {sl : Slot} {k : Kind} {r : Run} {x lo hi : Int}

/-! ### The steps of the loop (R26 to R28, R94 to R97) -/

/-- The setpoint of a run to a target, from the distance to its stop point. -/
theorem State.nextSetpoint_eq {stop : Int} (hs : s.runStop sl r (s.drive sl).lock = some stop) :
    s.nextSetpoint sl k r =
      match r.speed with
      | .creep => (params k).creep
      | .code c => setpoint k c |stop - (s.drive sl).count| (s.drive sl).vset (s.smon.level == .low) := by
  rw [State.nextSetpoint, hs]
  simp only [dist_eq_abs] <;> rfl

/-- The drive record after the loop of a control interval: on to the next stop point, or off. -/
def Drive.looped (d : Drive) (k : Kind) (r : Run) (x lo hi v : Int) : Drive :=
  let e := v - measuredSpeed d.pulses
  let m := d.modeAfter r e v
  let next := stopPoint r.dir x lo hi (coastAllowance k (d.lock && m.2.1))
  if beyond r.dir next d.count = true then
    { d with vset := v, loop := m.1, lock := m.2.1, close := m.2.2, duty := nextDuty k m.1 d.duty e, stop := some next }
  else d.braked (afterStop r)

theorem State.driveLoop_eq (hk : s.kindAt sl = some k) (he : s.clu.envelopes.get sl = .limits lo hi) (ht : r.target = some x) :
    s.driveLoop sl k r = s.setDrive sl ((s.drive sl).looped k r x lo hi (s.nextSetpoint sl k r)) := by
  simp only [State.driveLoop, State.mayDrive_limits hk he ht, State.runStop_limits hk he ht, Drive.looped]
  split <;> rfl

/-- The drive record of a driven axis after its own steps of a control interval. -/
def Drive.controlled (d : Drive) (k : Kind) (r : Run) (x lo hi : Int) (low : Bool) : Drive :=
  let stop := stopPoint r.dir x lo hi (coastAllowance k d.lock)
  let v := match r.speed with
    | .creep => (params k).creep
    | .code c => setpoint k c |stop - d.count| d.vset low
  if beyond r.dir stop d.count = true then (d.looped k r x lo hi v).shifted else (d.braked (afterStop r)).shifted

theorem Takes.driving (hk : s.kindAt sl = some k) (ha : (s.drive sl).axis = .driving) (hh : (s.drive sl).handed = none)
    (hr : (s.drive sl).run = some r) (ht : r.target = some x) (he : s.envelopeFor sl = .limits lo hi) :
    ∃ v, Takes 1 [.aduControl sl] s v ∧
      ActsAs s v sl ((s.drive sl).controlled k r x lo hi (s.smon.level == .low)) s.smon s.amon := by
  have hadj := s.intervalBegun_adjusted sl
  have hdrive := s.intervalBegun_drive sl
  generalize hb : s.intervalBegun sl = b at hadj hdrive
  have hkb : b.kindAt sl = some k := (hadj.kindAt sl).trans hk
  have heb : b.clu.envelopes.get sl = .limits lo hi := by rw [← hb, State.intervalBegun_envelope, he]
  have hstop := State.runStop_limits hkb heb ht (s.drive sl).lock
  have hset := State.nextSetpoint_eq (s := b) (k := k) (by rw [hdrive]; exact hstop)
  rw [hdrive, hadj.smon] at hset
  let d := if beyond r.dir (stopPoint r.dir x lo hi (coastAllowance k (s.drive sl).lock)) (s.drive sl).count = true then
      (s.drive sl).looped k r x lo hi (b.nextSetpoint sl k r) else (s.drive sl).braked (afterStop r)
  have hcontrol : s.aduControl sl = ((b.setDrive sl d).shiftPulses sl, []) := by
    rw [State.aduControl_driving hk ha hh hr, hb, State.mayDrive_limits hkb heb ht, hdrive, State.driveLoop_eq hkb heb ht, hdrive,
      State.driveOff_eq, hdrive]
    simp only [d]
    split <;> rfl
  refine ⟨(b.setDrive sl d).shiftPulses sl, .answer rfl ?_, ?_⟩
  · rw [show handle (.aduControl sl) s = _ from hcontrol]
    exact .nil _
  · have hd : (s.drive sl).controlled k r x lo hi (s.smon.level == .low) = d.shifted := by
      simp only [Drive.controlled, d, hset]
      split <;> rfl
    refine ⟨fun y => ?_, hadj.role, hadj.smon, hadj.amon⟩
    rw [State.shiftPulses_drive, State.drive_setDrive, State.drive_setDrive, if_pos rfl, hd, hdrive]
    split <;> rfl

/-- The mode test of R96, case by case; a run at creep holds SEEK. -/
theorem Drive.modeAfter_eq (d : Drive) (r : Run) (e v : Int) :
    d.modeAfter r e v =
      match r.speed, d.loop with
      | .creep, _ => (.seek, false, 0)
      | .code _, .seek =>
        if |e| * 8 ≤ v then (if 2 ≤ d.close then (.track, true, 3) else (.seek, d.lock, d.close + 1)) else (.seek, d.lock, 0)
      | .code _, .track => if v < |e| * 4 then (.seek, false, 0) else (.track, d.lock, d.close) := by
  have hclose : d.close + 1 ≥ Config.closeToTrack ↔ 2 ≤ d.close := by simp only [Config.closeToTrack]; omega
  cases hs : r.speed with
  | creep => simp [Drive.modeAfter, hs]
  | code c => cases hl : d.loop <;> simp [Drive.modeAfter, hs, hl, modeTest, dist_eq_abs, hclose] <;> rfl

/-- The setpoint of R28, with the LOW cap. -/
theorem setpoint_eq (k : Kind) (c : Nat) (far prev : Int) (l : Level) :
    setpoint k c far prev (l == .low) =
      (let v0 := max (params k).creep (min (cruise k c) (min ((params k).creep + (params k).slope * far) (prev + (params k).creep)))
      if l = .low then min v0 (2 * (params k).creep) else v0) := by
  cases l <;> rfl

theorem State.withSense_passages (s : State) (n : Nat) : SamePassages s (s.withSense n) :=
  .ofClu ⟨rfl, rfl, rfl, rfl, rfl, rfl, rfl, rfl, rfl, rfl, rfl, rfl, rfl, rfl, rfl, rfl, fun _ => rfl⟩ rfl rfl rfl rfl

/-- Settles O42: the driven axis's own steps (`Drive.controlled`) amid an interval that asks nothing of the others. -/
theorem speedLoopInterval : Obligations.SpeedLoopInterval := by
  intro s n sl k r x lo hi hst hq hk ha hr hh ht he hothers d q allowance stop ahead moved off
  have hahead (y : Int) : ahead y ↔ beyond r.dir y d.count = true := (beyond_iff r.dir y d.count).symm
  have hstop : stop = stopPoint r.dir x lo hi (coastAllowance k d.lock) := by
    simp only [stop]
    cases r.dir <;> rfl
  obtain ⟨t, hsettle, hpass, hdrive, hrest, -, -⟩ := settle_interval (s := s.withSense n) (sl := sl) (n := 1) hq (by decide) hothers
    (fun u hu hud => by
      have := Takes.driving (s := u) (sl := sl) (k := k) (r := r) (x := x) (lo := lo) (hi := hi) ((hu.kindAt sl).trans hk)
        (by rw [hud]; exact ha) (by rw [hud]; exact hh) (by rw [hud]; exact hr) ht ((hu.envelopeFor hud).trans he)
      rwa [hud, hu.smon, hu.amon] at this)
  have hfinal (y : Slot) : t.takeActivity.drive y = t.drive y := by rw [State.drive, (State.takeActivity_keeps t).1]; rfl
  have hcontrolled : t.takeActivity.drive sl = d.controlled k r x lo hi (s.smon.level == .low) := (hfinal sl).trans hdrive
  have hpass' : SamePassages s t.takeActivity := (s.withSense_passages n).trans hpass
  refine ⟨_, (exec_controlInterval hst).trans (congrArg _ hsettle), hpass', fun hna => ?_, fun hgo => ?_,
    fun y hy => (hfinal y).trans (hrest y hy)⟩
  · rw [hcontrolled, Drive.controlled]
    exact if_neg (by rw [← hstop, ← hahead]; exact hna)
  · intro far v e m gain kept next
    have hv : v = match r.speed with
        | .creep => (params k).creep
        | .code c => setpoint k c |stopPoint r.dir x lo hi (coastAllowance k d.lock) - d.count| d.vset (s.smon.level == .low) := by
      simp only [v, far, setpoint_eq, hstop]
      rfl
    have hm : m = d.modeAfter r e v := (Drive.modeAfter_eq d r e v).symm
    have hnext : next = stopPoint r.dir x lo hi (coastAllowance k (d.lock && m.2.1)) := by
      have hkept : kept = coastAllowance k (d.lock && m.2.1) := by
        simp only [kept, coastAllowance, Bool.and_eq_true]
        rfl
      simp only [next, hkept]
      cases r.dir <;> rfl
    have hlooped : t.takeActivity.drive sl = (d.looped k r x lo hi v).shifted := by
      rw [hcontrolled, Drive.controlled, ← hv]
      exact if_pos (by rw [← hstop, ← hahead]; exact hgo)
    rw [hahead, hlooped, Drive.looped, show v - measuredSpeed d.pulses = e from rfl, ← hm, ← hnext]
    refine ⟨fun h => ?_, fun h => ?_⟩
    · rw [if_pos h]
      rfl
    · rw [if_neg h]
      rfl

end Sys2Proof.Machine
end

section
/-! PROOFS. A run taken by an IDLE axis (O43). -/

namespace Sys2Proof.Machine

variable {s t u : State} {sl : Slot} {k : Kind} {r : Run} {x lo hi : Int}

/-! ### Leaving IDLE (R89, R134, R140) -/

/-- Entry into DRIVING from IDLE: an activity event, and a supply sample where no other axis moves. -/
theorem State.enterDriving_idle (hk : s.kindAt sl = some k) (ha : (s.drive sl).axis = .idle) (hd : s.smon.driveSetEmpty = true) :
    s.enterDriving sl r =
      ((s.noteActivity.setDrive sl
          ((s.drive sl).entered r k (runDistance r (s.drive sl).count) (s.runStop sl r false))).setDriveSet sl true,
        [.driveEntered]) := by
  simp only [State.enterDriving, hk, if_pos ha, hd, if_true]
  rfl

/-- A run without a target on an IDLE axis. -/
theorem State.beginRun_blind (ho : r.origin ≠ .learn) (ht : r.target = none) : s.beginRun sl r = s.testRun sl r :=
  State.beginRun_eq ho (by rw [ht]; exact fun h => by cases h)

/-- A supply sample of 11 V and more, from OK or LOW (R135). -/
theorem applySample_ok {l : Level} {n v : Nat} (hl : l = .ok ∨ l = .low) (hv : 110 ≤ v) :
    applySample l n (supplySample v) = (.ok, 0) := by
  have h255 : 110 ≤ supplySample v := by simp only [supplySample]; omega
  rcases hl with rfl | rfl <;> simp only [applySample, levelAfter] <;>
    rw [if_neg (by omega), if_neg (by omega), if_neg (by omega)]

/-- The sample that a first axis takes as it begins to drive, where it finds the level OK. -/
theorem State.driveEntered_ok (hl : s.smon.level = .ok ∨ s.smon.level = .low) (hv : 110 ≤ s.vsense) :
    s.driveEntered = ({ s with smon := { s.smon with level := .ok, recovery := 0, timer := some 10 } }, []) := by
  rw [State.driveEntered, State.takeSample, applySample_ok hl hv]
  exact if_neg (fun h => by cases h.1)

/-- An activity event taken while an axis moves: the supply monitor stands as it was (R140, R143). -/
theorem State.takeActivity_moving (ha : s.amon.activityDue = true) (hd : s.smon.driveSetEmpty = false) :
    s.takeActivity.smon = s.smon ∧ s.takeActivity.amon = { mode := .active, quiet := some 30000, activityDue := false } := by
  unfold State.takeActivity
  rw [if_pos ha]
  cases s.amon.mode with
  | active => exact ⟨rfl, rfl⟩
  | quiet =>
    simp only [hd, Bool.false_eq_true, if_false]
    split <;> exact ⟨rfl, rfl⟩

theorem State.noteActivity_awake (h : s.station = .start ∨ s.station = .sync ∨ s.station = .run) :
    s.noteActivity.amon = { s.amon with activityDue := true } := by rw [State.noteActivity, if_pos h]

/-- An IDLE axis takes the run handed to it and drives, the first to do so. -/
theorem Takes.handed (hst : s.station = .start ∨ s.station = .sync ∨ s.station = .run) (hk : s.kindAt sl = some k)
    (ha : (s.drive sl).axis = .idle) (hh : (s.drive sl).handed = some r) (hw : s.rcs.writing.get sl = none) (ho : r.origin ≠ .learn)
    (ht : r.target = some x) (hx : x ≠ (s.drive sl).count) (he : s.envelopeFor sl = .limits lo hi)
    (hd : s.smon.driveSet = .all false) (hl : s.smon.level = .ok ∨ s.smon.level = .low) (hv : 110 ≤ s.vsense)
    (hb : beyond r.dir (stopPoint r.dir x lo hi (coastAllowance k false)) (s.drive sl).count = true) :
    ∃ v, Takes 2 [.aduControl sl] s v ∧
      ActsAs s v sl
        ((({ s.drive sl with handed := none } : Drive).shifted).entered r k |x - (s.drive sl).count|
          (some (stopPoint r.dir x lo hi (coastAllowance k false))))
        { level := .ok, recovery := 0, driveSet := s.smon.driveSet.set sl true, timer := some 10 }
        { s.amon with activityDue := true } := by
  have hadj := s.intervalBegun_adjusted sl
  have hdrive := s.intervalBegun_drive sl
  have heb := s.intervalBegun_envelope sl
  generalize hbg : s.intervalBegun sl = b at hadj hdrive heb
  have hdb : (b.taken sl).drive sl = { s.drive sl with handed := none } := by rw [State.taken_drive, hdrive]
  have hkb : (b.taken sl).kindAt sl = some k := (hadj.kindAt sl).trans hk
  have hmb : (b.taken sl).smon = s.smon := hadj.smon
  have hempty : (b.taken sl).smon.driveSetEmpty = true := by rw [hmb, Smon.driveSetEmpty, hd]; rfl
  have htake : b.takeRun sl r =
      (((b.taken sl).noteActivity.setDrive sl (({ s.drive sl with handed := none } : Drive).entered r k |x - (s.drive sl).count|
          (some (stopPoint r.dir x lo hi (coastAllowance k false))))).setDriveSet sl true, [.driveEntered]) := by
    rw [State.takeRun_idle (by rw [hdrive]; exact ha), State.beginRun_eq ho (by rw [hdb, ht]; exact fun h => hx (Option.some.inj h)),
      State.testRun_drives hkb (heb.trans he) ht (by rw [hmb]; exact hl) (by rw [hdb]; exact hb),
      State.enterDriving_idle hkb (by rw [hdb]; exact ha) hempty, State.runStop_limits hkb (heb.trans he) ht, hdb]
    simp only [runDistance, ht, dist_eq_abs]
  generalize hw' : ((b.taken sl).noteActivity.setDrive sl _).setDriveSet sl true = w at htake
  have hcontrol : handle (.aduControl sl) s = (w.shiftPulses sl, [.driveEntered]) := by
    have := State.aduControl_handed (s := s) (sl := sl) (r := r) (by rw [hk]; rfl) hh hw
    rw [hbg, htake] at this
    exact this
  have hwm : w.smon = { s.smon with driveSet := s.smon.driveSet.set sl true } := by
    rw [← hw', State.setDriveSet, State.setDrive_smon, State.noteActivity_smon, hmb]
  have hwv : w.vsense = s.vsense := by
    rw [← hw', ← hadj.vsense]
    exact (Evolves.activity (loose := True) (b.taken sl)).vsense
  have hsample := State.driveEntered_ok (s := w.shiftPulses sl)
    (by rw [show (w.shiftPulses sl).smon = w.smon from rfl, hwm]; exact hl) (by rw [show (w.shiftPulses sl).vsense = w.vsense from rfl, hwv]; exact hv)
  refine ⟨{ w.shiftPulses sl with smon := { (w.shiftPulses sl).smon with level := .ok, recovery := 0, timer := some 10 } },
    .answer rfl ?_, ?_⟩
  · rw [hcontrol]
    exact .answer rfl (by rw [show handle .driveEntered (w.shiftPulses sl) = _ from hsample]; exact .nil _)
  · refine ⟨fun y => ?_, ?_, ?_, ?_⟩
    · have hwd : w.drive y = if sl = y then ({ s.drive sl with handed := none } : Drive).entered r k |x - (s.drive sl).count|
          (some (stopPoint r.dir x lo hi (coastAllowance k false))) else s.drive y := by
        rw [← hw']
        refine (State.drive_setDrive _ sl y _).trans ?_
        split
        · rfl
        · rename_i hy
          rw [State.noteActivity_drive, State.taken, State.drive_setDrive, if_neg hy, hdrive]
      refine (State.shiftPulses_drive w sl y).trans ?_
      split
      · rename_i hy
        subst hy
        rw [hwd, if_pos rfl]
        rfl
      · rename_i hy
        rw [hwd, if_neg hy]
    · refine Eq.trans (b := w.role) rfl (Eq.trans ?_ hadj.role)
      rw [← hw']
      exact State.noteActivity_role (b.taken sl)
    · show ({ w.smon with level := .ok, recovery := 0, timer := some 10 } : Smon) = _
      rw [hwm]
    · rw [← hadj.amon]
      refine Eq.trans (b := w.amon) rfl ?_
      rw [← hw']
      exact State.noteActivity_awake (s := b.taken sl) (by rw [show (b.taken sl).station = b.station from rfl, hadj.station]; exact hst)

/-! ### A REFERENCE run (R25, R105, R119) -/

theorem State.runStop_blind (ht : r.target = none) {lock : Bool} : s.runStop sl r lock = none := by
  unfold State.runStop
  rw [ht]
  split <;> simp_all

theorem State.enterDriving_drive (hk : s.kindAt sl = some k) :
    (s.enterDriving sl r).1.drive sl =
      (s.drive sl).entered r k (runDistance r (s.drive sl).count) (s.runStop sl r false) := by
  simp only [State.enterDriving, hk]
  exact (State.drive_setDrive _ sl sl _).trans (if_pos rfl)

/-- Whether a REFERENCE run may drive: the condition of its pairs is open, on an axis with a count envelope too. -/
theorem State.mayDrive_reference (ho : r.origin = .reference) (ht : r.target = none) {lock : Bool} :
    s.mayDrive sl r lock = true ↔
      s.clu.envelopes.get sl = .opened ∨
        (∃ lo hi, s.clu.envelopes.get sl = .limits lo hi) ∧ ∀ v ∈ s.pairsOf sl, v.gives sl = true := by
  have hstop : s.runStop sl r lock = none := State.runStop_blind ht
  unfold State.mayDrive
  split
  · rename_i he
    simp [hstop, ho, State.conditionFor, he]
  · rename_i he
    simp [ht, he]
  · rename_i he
    simp [he]

/-- Settles O43: the run's taking (`Takes.handed`) amid an interval that asks nothing of the other axes, and a REFERENCE run by what
lets it drive. -/
theorem handedRunIsDriven : Obligations.HandedRunIsDriven := by
  refine ⟨?_, ?_⟩
  · intro s n sl k r x lo hi hst hq hk ha hh hw ho ht hx he hothers hd hl hn d stop hahead
    have hstop : stop = stopPoint r.dir x lo hi (coastAllowance k false) := by
      simp only [stop]
      cases r.dir <;> rfl
    obtain ⟨t, hsettle, hpass, hdrive, -, hsmon, hamon⟩ := settle_interval (s := s.withSense n) (sl := sl) (n := 2) hq (by decide)
      hothers (fun u hu hud => by
        have := Takes.handed (s := u) (sl := sl) (k := k) (r := r) (x := x) (lo := lo) (hi := hi)
          (by rw [hu.station]; exact hst) ((hu.kindAt sl).trans hk) (by rw [hud]; exact ha) (by rw [hud]; exact hh)
          (by rw [hu.rcs]; exact hw) ho ht (by rw [hud]; exact hx) ((hu.envelopeFor hud).trans he) (by rw [hu.smon]; exact hd)
          (by rw [hu.smon]; exact hl) (by rw [hu.vsense]; exact hn) (by rw [hud, beyond_iff, ← hstop]; exact hahead)
        rwa [hud, hu.smon, hu.amon] at this)
    have hmoving := State.takeActivity_moving (s := t) (by rw [hamon]) (Smon.driveSetEmpty_eq_false (sl := sl) (by
      rw [hsmon]; exact (PerSlot.get_set _ sl sl true).trans (if_pos rfl)))
    refine ⟨_, (exec_controlInterval hst).trans (congrArg _ hsettle), (s.withSense_passages n).trans hpass, ?_, ?_, hmoving.2⟩
    · rw [State.drive, (State.takeActivity_keeps t).1, hstop]
      exact hdrive
    · rw [hmoving.1, hsmon]
      rfl
  · intro s sl k r hk ha ho ht hp hl d ranged given
    have hd : (s.taken sl).drive sl = d := State.taken_drive s sl
    have hmay : (s.taken sl).mayDrive sl r false = true ↔ s.clu.envelopes.get sl = .opened ∨ ranged ∧ given :=
      State.mayDrive_reference ho ht
    have htake : s.takeRun sl r = (s.taken sl).testRun sl r := by
      rw [State.takeRun_idle ha, State.beginRun_blind (by rw [ho]; decide) ht]
    have hk' : (s.taken sl).kindAt sl = some k := hk
    rw [htake]
    refine ⟨fun h => ?_, fun h => ?_⟩
    · have hbars : (s.taken sl).supplyBars = false := State.supplyBars_eq_false hl
      have hdist : runDistance r (d.count : Int) = 8000 := by simp only [runDistance, ht, hp]; rfl
      simp only [State.testRun, hk', hmay.mpr h, if_true, State.tryDriving, hbars, Bool.false_eq_true, if_false]
      rw [State.enterDriving_drive hk', hd, hdist, State.runStop_blind ht]
    · have hno : (s.taken sl).mayDrive sl r false = false := by
        rw [← Bool.not_eq_true, hmay]
        rintro (hopen | ⟨⟨lo, hi, he⟩, hgiven⟩)
        · rcases h with h | ⟨⟨lo, hi, he⟩, -⟩
          · rw [h] at hopen; cases hopen
          · rw [he] at hopen; cases hopen
        · rcases h with h | ⟨-, h⟩
          · rw [h] at he; cases he
          · exact h hgiven
      simp only [State.testRun, hk', hno, Bool.false_eq_true, if_false, ho, ht, Option.isNone_none, true_or, if_true, reduceCtorEq]
      rw [State.rest_drive, if_pos rfl, hd]
      rfl

end Sys2Proof.Machine
end

section
/-! PROOFS. O13 fails: nothing in its hypotheses has a job list the pairs of its own axis alone. -/

namespace Sys2Proof.Machine

/-! ### A station whose job lists a pair of another axis -/

/-- M60 in RUN. The SLIDE's job has a claim QUEUED on pair 0, its own, and one PENDING on pair 2, which is the BACK's; its run is not
handed yet. The BACK holds a run up to 500 of 1000 under an envelope from before its pairs changed. A DECLINE of FL for pair 0 is at the
head of the receive queue. -/
def strayEntry : State :=
  { State.underReset Rcs.initial [] with
    station := .run, role := some .m60
    clu :=
      { views :=
          [ { newView 0 .s0 ⟨0, 120⟩ (.peer .fl .back ⟨0, 150⟩) with state := .queued },
            { newView 2 .s1 ⟨780, 1000⟩ (.peer .fl .slide ⟨850, 1000⟩) with state := .pending } ]
        envelopes := ⟨.frozen, .limits 300 300, .frozen⟩, due := [] }
    adu :=
      ⟨{ Drive.blank with axis := .idle },
        { Drive.blank with
          axis := .holding, referenced := true, count := 300, span := 1000
          run := some { origin := .jog, dir := .up, target := some 500, speed := .code 2, secondLeg := false, pulsesLeft := none } },
        .blank⟩
    mvc := { (State.underReset Rcs.initial []).mvc with
      jobs := ⟨{ Job.free with active := true, entries := [⟨0, .claimed⟩, ⟨2, .claimed⟩] }, .free, .free⟩ }
    smon := { level := .ok, recovery := 0, driveSet := .all false, timer := some 200 }
    bus := { (State.underReset Rcs.initial []).bus with rx := [⟨passageFrame kDecline .fl 0 0, false⟩] } }

theorem strayEntry_takes : TakesFrame strayEntry kDecline false (passageFrame kDecline .fl 0 0) [] where
  taking := .inr rfl
  head := rfl
  kind := by decide
  clash := fun _ r hr => by cases hr; decide

/-- Under a supply below 9 V on VSENSE the DECLINE ends the SLIDE's job: the withdrawal from pair 2 hands the BACK its envelope, the BACK
begins to drive, the sample of R134 finds the supply CRITICAL, and every job ends. -/
theorem strayEntry_declined : ∃ t, exec (.peerDecline 0) strayEntry = .next t ∧ (t.job .s0).active = false := ⟨_, rfl, by decide⟩

/-- Refutes O13: the clause of a claim that fails on an axis which is not HOLDING has the job stay active, and the job of
`strayEntry_declined` ends in the same step. A job that the model starts lists pairs of its own axis alone (R30, R130), but the statement
speaks of every state. -/
theorem not_peerDeclineEndsQueue : ¬ Obligations.PeerDeclineEndsQueue := by
  intro h
  obtain ⟨t, ht, -, hstays, -⟩ := h strayEntry 0 _ [] _ strayEntry_takes rfl (by decide)
  obtain ⟨u, hu, hended⟩ := strayEntry_declined
  obtain rfl : t = u := Host.Outcome.next.inj (ht.symm.trans hu)
  obtain ⟨hactive, -⟩ := hstays .pinned _ rfl (by decide) rfl rfl (by decide) (by decide) (by decide)
  exact Bool.noConfusion (hended.symm.trans hactive)

end Sys2Proof.Machine
end

section
/-! PROOFS. The CEDE frames and the views they move, the test of release on exit and the pairs a job needs (O11). -/

namespace Sys2Proof.Machine

variable {s t u : State} {v : View} {p : Nat}

/-! ### The passages after a CEDE -/

theorem State.ownCede_local (s : State) (v : View) : AllLocal (s.ownCede v).2 := by
  unfold State.ownCede
  cases v.state with
  | own | ownWait | queued => exact s.viewTo_local _ _
  | opened | pending | peer | barred | conflict | heldA | heldB => exact AllLocal.nil

theorem State.peerCeded_local (s : State) (v : View) : AllLocal (s.peerCeded v).2 := by
  unfold State.peerCeded
  cases v.state with
  | ownWait | queued | peer => exact s.viewTo_local _ _
  | opened | pending | own | barred | conflict | heldA | heldB => exact AllLocal.nil

/-- The views after the effect of the own CEDE's echo (R41). -/
theorem State.ownCede_passages {S : State} (h : SamePassages S s) (hv : s.view? v.pair = some v) (hp : v.peerRole.isSome = true) :
    SamePassages
      (match v.state with
       | .own => S.viewAs v.pair .opened none
       | .ownWait | .queued => S.viewAs v.pair .peer none
       | .opened | .pending | .peer | .barred | .conflict | .heldA | .heldB => S) (s.ownCede v).1 := by
  unfold State.ownCede
  cases hst : v.state with
  | own | ownWait | queued => exact h.viewTo hv hp (by simp [hst]) (by simp)
  | opened | pending | peer | barred | conflict | heldA | heldB => exact h

/-- The views after the effect of a peer's CEDE (R42). -/
theorem State.peerCeded_passages {S : State} (h : SamePassages S s) (hv : s.view? v.pair = some v) (hp : v.peerRole.isSome = true) :
    SamePassages
      (match v.state with
       | .ownWait | .queued => S.viewAs v.pair .own none
       | .peer => S.viewAs v.pair .opened none
       | .opened | .pending | .own | .barred | .conflict | .heldA | .heldB => S) (s.peerCeded v).1 := by
  unfold State.peerCeded
  cases hst : v.state with
  | ownWait | queued | peer => exact h.viewTo hv hp (by simp [hst]) (by simp)
  | opened | pending | own | barred | conflict | heldA | heldB => exact h

/-! ### The test of release (R53) -/

theorem View.bandFor_self (v : View) : v.bandFor v.slot = some v.band := if_pos rfl

theorem Interval.meets_eq_false (i : Interval) (b : Band) : i.meets b = false ↔ i.high < (b.x1 : Int) ∨ (b.x2 : Int) < i.low := by
  rw [Interval.meets, decide_eq_false_iff_not]
  omega

theorem passageFrame_cede (own : Role) (p : Nat) : passageFrame kCede own p 0 = encode (roleCode own) (.cede p) := by
  simp [passageFrame, encode, identOf, Nat.mul_comm]

/-- The test of release of a peer pair: the own CEDE goes out where the axis is off the band, needs the pair no longer and a frame may be
handed. -/
theorem State.release_peer (hv : s.view? p = some v) (hp : v.peerRole.isSome = true) :
    let u := s.markPassed v.slot
    s.release p =
      if (v.state = .own ∨ v.state = .ownWait) ∧ (s.occupiedAt v.slot).meets v.band = false ∧
          (u.job v.slot).needs (s.drive v.slot) p v.band = false ∧ s.mayHand v = true then
        (u.handPassage p .cede (.cede p), [])
      else (u, []) := by
  obtain ⟨hst, -, -, -, hbus, hin⟩ := s.markPassed_reads v.slot
  have hinside : s.inside v v.slot = (s.occupiedAt v.slot).meets v.band := by rw [State.inside, v.bandFor_self]
  have hmay : (s.markPassed v.slot).mayHand v = s.mayHand v := by rw [State.mayHand, State.mayHand, hst, hbus]
  cases ho : v.other with
  | self sb b => simp [View.peerRole, ho] at hp
  | peer r k b =>
    simp only [State.release, hv, View.ownSlots_peer hp, List.foldl_cons, List.foldl_nil, ho, hin, hinside, State.needed, v.bandFor_self,
      State.markPassed_drive, State.view?_some_pair hv, hmay]
    rfl

/-- The mark that passes bands, entry by entry (R31, R49). -/
theorem State.markPassed_entries {sl : Slot} (ha : (s.job sl).active = true) (ho : (s.job sl).origin ≠ .learn) :
    ((s.markPassed sl).job sl).entries = (s.job sl).entries.map (fun e =>
      match e.status, (s.view? e.pair).bind (fun w => w.bandFor sl) with
      | .held, some b | .needed, some b | .claimed, some b =>
        if (s.job sl).dir = .up ∧ (b.x2 : Int) < (s.occupiedAt sl).low ∨
            (s.job sl).dir = .down ∧ (s.occupiedAt sl).high < (b.x1 : Int) then
          { e with status := .passed }
        else e
      | _, _ => e) := by
  have hpassed : ∀ (dir : Dir) (i : Interval) (b : Band), passedBand dir i b = true ↔
      dir = .up ∧ (b.x2 : Int) < i.low ∨ dir = .down ∧ i.high < (b.x1 : Int) := fun dir i b => by
    cases dir <;> simp [passedBand]
  simp only [State.markPassed, ha, Bool.true_and, bne_iff_ne, ne_eq, ho, not_false_eq_true, if_true, State.job_setJob]
  refine List.map_congr_left fun e _ => ?_
  simp only [hpassed]
  cases e.status with
  | held | needed | claimed => cases (s.view? e.pair).bind (fun w => w.bandFor sl) <;> rfl
  | passed | failed f => rfl

/-- A job with a crossing list needs a pair for an entry of the list, or for a target inside the band (R31, R50). -/
theorem Job.needs_iff {j : Job} (ha : j.active = true) (ho : j.origin ≠ .learn) (d : Drive) (p : Nat) (b : Band) :
    j.needs d p b = true ↔
      (∃ a st c, j.entries = a ++ ⟨p, st⟩ :: c ∧ st ≠ .passed ∧ (st = .held → ∀ e ∈ a, ∀ f, e.status ≠ .failed f)) ∨
        ∃ x, j.target = some x ∧ d.span ≠ 0 ∧ (staticInterval x d.span).meets b = true := by
  rw [Job.needs, ha, Bool.true_and, if_neg ho, Bool.or_eq_true, neededEntries_any]
  refine or_congr_right ?_
  cases j.target <;> simp

/-- A learn needs each pair of its list (R130). -/
theorem Job.needs_learn {j : Job} (ha : j.active = true) (ho : j.origin = .learn) (d : Drive) (p : Nat) (b : Band) :
    j.needs d p b = true ↔ ∃ e ∈ j.entries, e.pair = p := by
  simp [Job.needs, ha, ho]

/-- Settles O11: each CEDE leaves what R41 and R42 set through the reports that follow, and the test of release is one answer of its
block. -/
theorem cedeFramesMoveView : Obligations.CedeFramesMoveView := by
  refine ⟨?_, ?_, ?_, fun j d p b => ⟨fun ha => by simp [Job.needs, ha], fun ha ho => Job.needs_learn ha ho d p b,
    fun ha ho => Job.needs_iff ha ho d p b⟩⟩
  · intro s n f rest v h hv hp
    have hpair := State.view?_some_pair hv
    obtain ⟨l1, _, _, _, l5, _⟩ := v.landed_frame .cede
    let u := (s.frameTaken n).updView v.pair (View.landed .cede)
    have hu : u.view? v.pair = some (v.landed .cede) :=
      State.view?_updView_self (by rw [State.frameTaken_view?, hpair]; exact hv) (fun w => (w.landed_frame .cede).1)
    have hx : exec (.ownCedeEcho n) s = .next (settle ((u.ownCede (v.landed .cede)).thenServe v.pair)) :=
      congrArg (fun e => Host.Outcome.next (settle e)) (h.takeEcho hv hp n .cede State.ownCede)
    have hpass : SamePassages (s.leaving rest) u := (State.frameTaken_passages h.head n).trans (State.landed_passages _ _ _)
    have hview := State.ownCede_passages (v := v.landed .cede) hpass (by rw [l1]; exact hu) (by rw [View.landed_peerRole]; exact hp)
    rw [l5, l1] at hview
    exact ⟨_, hx, settle_thenServe_passages hview (State.ownCede_local _ _) v.pair⟩
  · intro s n f rest v h hv hp
    have hpair := State.view?_some_pair hv
    have hps : v.peerRole.isSome = true := by cases hr : v.peerRole <;> simp [hr] at hp ⊢
    have hx : exec (.peerCede n) s = .next (settle ((s.withSense n).takePeer kCede (fun t v _ => t.peerCeded v))) := rfl
    rw [h.takePeer hv hp] at hx
    have hu : (s.frameTaken n).view? v.pair = some v := by rw [State.frameTaken_view?, hpair]; exact hv
    have hview := State.peerCeded_passages (State.frameTaken_passages h.head n) hu hps
    exact ⟨_, hx, settle_release_passages hview (State.peerCeded_local _ _) v⟩
  · intro s p v own hv hp hrole
    have hrel := State.release_peer hv hp
    refine ⟨fun hown ⟨hoff, hneeds, hflight⟩ hrun hbus => ?_, fun hnot => ?_, fun j hj ha ho => hj ▸ State.markPassed_entries ha ho⟩
    · have hmay : s.mayHand v = true := by simp [State.mayHand, hflight, hrun, hbus]
      rw [hrel, if_pos ⟨hown, (Interval.meets_eq_false _ _).mpr hoff, hneeds, hmay⟩]
      have hsend : (s.markPassed v.slot).sender = roleCode own := State.sender_of_role (by rw [State.markPassed_role, hrole])
      refine ⟨rfl, ?_⟩
      rw [passageFrame_cede, ← hsend]
      exact State.handPassage_sends _ p .cede (.cede p)
    · rw [hrel, if_neg]
      rintro ⟨hown, hoff, hneeds, hmay⟩
      simp only [State.mayHand, Bool.and_eq_true, Option.isNone_iff_eq_none] at hmay
      obtain ⟨⟨hflight, -⟩, hbus⟩ := hmay
      rcases hnot with ⟨h1, h2⟩ | hfree | hoffbus
      · exact hown.elim h1 h2
      · exact hfree ⟨(Interval.meets_eq_false _ _).mp hoff, hneeds, hflight⟩
      · simp [hbus] at hoffbus

end Sys2Proof.Machine
end

section
/-! PROOFS. What the reports of a hall pulse leave of the pulse histories: no block but the ADU's control interval shifts one (R88, R94).
One lemma for each operation that changes a drive record or reports; it says both what the operation keeps and what it reports. -/

namespace Sys2Proof.Machine

variable {s t : State} {sl : Slot}

/-! ### The pulse histories, and the reports that keep them -/

/-- The pulse histories of the axes. -/
def State.histories (s : State) (x : Slot) : PulseHistory := (s.drive x).pulses

/-- The reports that a new envelope can bring about, and those that they bring about in turn. -/
def Report.followsEnvelope : Report → Bool
  | .envelope _ | .release _ | .evalYield _ | .serve _ | .decide _ _ | .withdraw _ _ _ _ | .failEntry _ _ _ | .handRun _
  | .learnCheck _ | .driveEntered | .supplyCritical | .endRequest _ _ | .endRequests _ _ | .runEnded _ _ | .finishJob _ _
  | .startQueued _ | .sceneOutcome _ _ _ | .startYield _ _ => true
  | .serveStake _ | .retest _ | .arbitrate _ | .aduControl _ | .beginWaiting _ | .replaceJob _ _ _ | .sceneGates _ | .loadSlot _ _
  | .jogRequest _ _ | .peerLost _ | .peerReturned _ | .peerTests _ | .clearForced _ | .pairTests _ | .unheardEntered | .unheardCleared
  | .syncExit => false

/-- An effect keeps the pulse histories, and reports nothing else than a new envelope can bring about. -/
structure KeepsHistories (s : State) (e : Effect) : Prop where
  histories : e.1.histories = s.histories
  reports : ∀ r ∈ e.2, r.followsEnvelope = true

namespace KeepsHistories

theorem after {e : Effect} (h : KeepsHistories t e) (ht : t.histories = s.histories) : KeepsHistories s e :=
  ⟨h.histories.trans ht, h.reports⟩

theorem andThen {e : Effect} {f : State → Effect} (h : KeepsHistories s e) (hf : KeepsHistories e.1 (f e.1)) :
    KeepsHistories s (e.andThen f) :=
  ⟨hf.histories.trans h.histories, List.forall_mem_append.mpr ⟨h.reports, hf.reports⟩⟩

end KeepsHistories

theorem overAll_keepsHistories {α : Type} {f : State → α → Effect} (hf : ∀ s x, KeepsHistories s (f s x)) (xs : List α) (s : State) :
    KeepsHistories s (overAll f xs s) := by
  induction xs generalizing s with
  | nil => exact ⟨rfl, by simp [overAll]⟩
  | cons x xs ih => exact (hf s x).andThen (ih _)

/-! ### Updates of the state -/

theorem State.histories_of_adu (h : t.adu = s.adu) : t.histories = s.histories :=
  funext fun x => by rw [State.histories, State.histories, State.drive, State.drive, h]

@[simp] theorem State.histories_setDrive (s : State) (sl : Slot) (d : Drive) :
    (s.setDrive sl d).histories = Function.update s.histories sl d.pulses := by
  funext x
  simp only [State.histories, State.drive_setDrive, Function.update_apply, eq_comm (a := x)]
  split <;> rfl

@[simp] theorem State.update_histories (s : State) (sl : Slot) : Function.update s.histories sl (s.drive sl).pulses = s.histories :=
  Function.update_eq_self sl s.histories

@[simp] theorem State.histories_setJob (s : State) (sl : Slot) (j : Job) : (s.setJob sl j).histories = s.histories := rfl
@[simp] theorem State.histories_setPin (s : State) (sl : Slot) (b : Bool) : (s.setPin sl b).histories = s.histories := rfl
@[simp] theorem State.histories_setQueued (s : State) (sl : Slot) (q : Option QueuedStart) : (s.setQueued sl q).histories = s.histories := rfl
@[simp] theorem State.histories_setScene (s : State) (a : Option SceneEntry) (es : List SceneEntry) :
    (s.setScene a es).histories = s.histories := rfl
@[simp] theorem State.histories_updView (s : State) (p : Nat) (f : View → View) : (s.updView p f).histories = s.histories := rfl
@[simp] theorem State.histories_setDue (s : State) (ds : List Due) : (s.setDue ds).histories = s.histories := rfl
@[simp] theorem State.histories_setBus (s : State) (b : Bif) : (s.setBus b).histories = s.histories := rfl
@[simp] theorem State.histories_setDriveSet (s : State) (sl : Slot) (b : Bool) : (s.setDriveSet sl b).histories = s.histories := rfl
@[simp] theorem State.histories_buildEnvelope (s : State) (sl : Slot) : (s.buildEnvelope sl).histories = s.histories := rfl
@[simp] theorem State.histories_recordDue (s : State) (p : Nat) (k : PassageKind) : (s.recordDue p k).histories = s.histories := rfl
@[simp] theorem State.histories_dropDue (s : State) (p : Nat) (k : PassageKind) : (s.dropDue p k).histories = s.histories := rfl
@[simp] theorem State.histories_oweCede (s : State) (p : Nat) : (s.oweCede p).histories = s.histories := rfl
@[simp] theorem State.histories_clearStake (s : State) (p : Nat) : (s.clearStake p).histories = s.histories := rfl

@[simp] theorem State.histories_noteActivity (s : State) : s.noteActivity.histories = s.histories := by
  obtain ⟨a, h⟩ := s.noteActivity_eq
  rw [h]
  rfl

@[simp] theorem State.histories_markPassed (s : State) (sl : Slot) : (s.markPassed sl).histories = s.histories := by
  obtain ⟨es, h | h⟩ := s.markPassed_eq sl <;> rw [h]
  rfl

@[simp] theorem State.histories_handPassage (s : State) (p : Nat) (k : PassageKind) (pl : Payload) :
    (s.handPassage p k pl).histories = s.histories := by
  unfold State.handPassage State.placePassage
  split <;> rfl

@[simp] theorem State.histories_handCede (s : State) (p : Nat) : (s.handCede p).histories = s.histories := s.histories_handPassage _ _ _
@[simp] theorem State.histories_handClaim (s : State) (p : Nat) (st : Standing) : (s.handClaim p st).histories = s.histories :=
  s.histories_handPassage _ _ _
@[simp] theorem State.histories_handDecline (s : State) (p : Nat) (r : Reason) : (s.handDecline p r).histories = s.histories :=
  s.histories_handPassage _ _ _
@[simp] theorem State.histories_serveDueStake (s : State) (p : Nat) : (s.serveDueStake p).histories = s.histories :=
  State.histories_handPassage _ _ _ _

@[simp] theorem State.histories_serveDue (s : State) (p : Nat) : (s.serveDue p).histories = s.histories := by
  unfold State.serveDue
  repeat' split
  all_goals simp

@[simp] theorem State.histories_sendResult (s : State) (e : SceneEntry) : (s.sendResult e).histories = s.histories := by
  unfold State.sendResult
  obtain ⟨fs, gs, h⟩ := s.placeOutgoing_eq (encode s.sender (.result e.result))
  rw [h]
  rfl

@[simp] theorem State.histories_driveOff (s : State) (sl : Slot) (a : AfterBrake) : (s.driveOff sl a).histories = s.histories := by
  simp [State.driveOff, Drive.off]

@[simp] theorem State.histories_rest (s : State) (sl : Slot) (st : AxisState) (r : Option Run) : (s.rest sl st r).histories = s.histories := by
  unfold State.rest
  simp only
  split <;> simp [Drive.off]

@[simp] theorem State.histories_setReferenced (s : State) (sl : Slot) (b : Bool) : (s.setReferenced sl b).histories = s.histories :=
  (s.histories_setDrive sl { s.drive sl with referenced := b }).trans (s.update_histories sl)

theorem State.histories_stopDrives (s : State) : s.stopDrives.histories = s.histories := by
  unfold State.stopDrives
  induction allSlots generalizing s with
  | nil => rfl
  | cons x xs ih => rw [List.foldl_cons, ih]; split <;> simp

/-! ### The passage controller -/

theorem KeepsHistories.thenServe {e : Effect} (h : KeepsHistories s e) (p : Nat) : KeepsHistories s (e.thenServe p) :=
  ⟨(State.histories_serveDue _ p).trans h.histories, List.forall_mem_append.mpr ⟨h.reports, by simp [Report.followsEnvelope]⟩⟩

theorem withdrawals_follow (s : State) (sl : Slot) (es : List Entry) : ∀ r ∈ s.withdrawals sl es, r.followsEnvelope = true := by
  intro r hr
  obtain ⟨e, -, he⟩ := List.mem_filterMap.mp hr
  obtain ⟨v, -, rfl⟩ := Option.map_eq_some_iff.mp he
  rfl

theorem viewTo_keepsHistories (s : State) (p : Nat) (st : ViewState) : KeepsHistories s (s.viewTo p st) := by
  constructor
  · obtain ⟨vs, es, js, h⟩ := s.viewTo_eq p st
    rw [h]
    rfl
  · unfold State.viewTo
    repeat' split
    all_goals simp [or_imp, forall_and, Report.followsEnvelope]

theorem decline_keepsHistories (s : State) (v : View) (r : Reason) : KeepsHistories s (s.decline v r) := by
  unfold State.decline
  repeat' split
  all_goals exact ⟨by simp, by simp [Report.followsEnvelope]⟩

theorem release_keepsHistories (s : State) (p : Nat) : KeepsHistories s (s.release p) := by
  have hm : ∀ v : View, (v.ownSlots.foldl State.markPassed s).histories = s.histories := fun v => by
    generalize v.ownSlots = l
    induction l generalizing s with
    | nil => rfl
    | cons x xs ih => rw [List.foldl_cons, ih, State.histories_markPassed]
  unfold State.release
  simp only
  repeat' split
  · exact ⟨rfl, by simp⟩
  · exact ⟨by simp [hm], by simp⟩
  · exact ⟨hm _, by simp⟩
  · exact ⟨hm _, by simp⟩
  · exact ((viewTo_keepsHistories _ _ _).andThen ⟨rfl, by simp [Report.followsEnvelope]⟩).after (hm _)
  · exact (viewTo_keepsHistories _ _ _).after (hm _)
  · exact ⟨hm _, by simp⟩

theorem evalYield_keepsHistories (s : State) (p : Nat) : KeepsHistories s (s.evalYield p) := by
  have hd : ∀ (sl : Slot) (v : View) (r : Reason), KeepsHistories s ((s.markPassed sl).decline v r) := fun sl v r =>
    (decline_keepsHistories _ v r).after (s.histories_markPassed sl)
  unfold State.evalYield
  simp only
  split
  · exact ⟨rfl, by simp⟩
  · split
    · exact ⟨rfl, by simp⟩
    · repeat' split
      case h_2.isFalse.isTrue.isFalse.isTrue => exact hd _ _ _
      case h_1 => exact hd _ _ _
      all_goals exact ⟨by simp, by simp [Report.followsEnvelope]⟩

theorem claimInConflict_keepsHistories (s : State) (sl : Slot) (v : View) : KeepsHistories s (s.claimInConflict sl v) := by
  unfold State.claimInConflict
  repeat' split
  all_goals exact ⟨rfl, by simp [Report.followsEnvelope]⟩

theorem claimOpen_keepsHistories (s : State) (sl : Slot) (p : Nat) : KeepsHistories s (s.claimOpen sl p) := by
  obtain ⟨h, hr⟩ := viewTo_keepsHistories (s.setJob sl ((s.job sl).mark p (fun _ => .claimed))) p .pending
  exact ⟨(State.histories_handClaim _ _ _).trans h, hr⟩

theorem decideEntry_keepsHistories (s : State) (sl : Slot) (p : Nat) : KeepsHistories s (s.decideEntry sl p) := by
  unfold State.decideEntry
  simp only
  repeat' split
  all_goals first
    | exact claimInConflict_keepsHistories s sl _
    | exact claimOpen_keepsHistories s sl p
    | exact ⟨by simp, by simp [Report.followsEnvelope]⟩

theorem serve_keepsHistories (s : State) (p : Nat) : KeepsHistories s (s.serve p) := by
  unfold State.serve
  split
  · exact ⟨rfl, by simp⟩
  · split
    · exact ⟨rfl, by simp⟩
    · refine ⟨s.histories_serveDue p, ?_⟩
      split <;> simp [Report.followsEnvelope]

theorem loseFlight_keepsHistories (s : State) (p : Nat) : KeepsHistories s (s.loseFlight p) := by
  unfold State.loseFlight
  refine KeepsHistories.thenServe ?_ p
  repeat' split
  · exact (viewTo_keepsHistories _ p .opened).after rfl
  · exact ⟨rfl, by simp⟩
  · exact ⟨rfl, by simp⟩

theorem withdrawClaim_keepsHistories (s : State) (sl : Slot) (p : Nat) (st : EntryStatus) (v0 : ViewState) :
    KeepsHistories s (s.withdrawClaim sl p st v0) := by
  unfold State.withdrawClaim State.withdrawFlight
  simp only
  repeat' split
  all_goals first
    | exact viewTo_keepsHistories s p .opened
    | exact (loseFlight_keepsHistories _ p).after rfl
    | exact ⟨by simp, by simp⟩

/-! ### The drive unit and the supply monitor -/

theorem tryDriving_keepsHistories (s : State) (sl : Slot) (r : Run) : KeepsHistories s (s.tryDriving sl r) := by
  unfold State.tryDriving State.endRun State.enterDriving
  simp only
  repeat' split
  all_goals exact ⟨by simp [Drive.unjoined], by simp [Report.followsEnvelope]⟩

theorem testRun_keepsHistories (s : State) (sl : Slot) (r : Run) : KeepsHistories s (s.testRun sl r) := by
  unfold State.testRun State.endRun
  repeat' split
  case isTrue => exact tryDriving_keepsHistories s sl r
  all_goals exact ⟨by simp, by simp [Report.followsEnvelope]⟩

theorem handEnvelope_keepsHistories (s : State) (sl : Slot) : KeepsHistories s (s.handEnvelope sl) := by
  refine KeepsHistories.after (t := s.buildEnvelope sl) ?_ rfl
  rw [State.handEnvelope]
  generalize s.buildEnvelope sl = t
  unfold State.onEnvelope
  simp only
  repeat' split
  case h_2 => exact testRun_keepsHistories t sl _
  all_goals exact ⟨by simp, by simp⟩

theorem driveEntered_keepsHistories (s : State) : KeepsHistories s s.driveEntered := by
  unfold State.driveEntered State.takeSample
  simp only
  split
  · exact ⟨State.histories_stopDrives _, by simp [Report.followsEnvelope]⟩
  · exact ⟨rfl, by simp⟩

/-! ### The move controller -/

theorem failEntry_keepsHistories (s : State) (sl : Slot) (p : Nat) (f : Failure) : KeepsHistories s (s.failEntry sl p f) := by
  unfold State.failEntry
  simp only
  repeat' split
  · exact ⟨rfl, by simp [Report.followsEnvelope]⟩
  · exact ⟨rfl, withdrawals_follow _ _ _⟩
  · exact ⟨by simp [Drive.cutBack], withdrawals_follow _ _ _⟩
  · exact ⟨rfl, by simp⟩

theorem handRun_keepsHistories (s : State) (sl : Slot) : KeepsHistories s (s.handRun sl) := by
  unfold State.handRun
  simp only
  split <;> exact ⟨by simp, by simp⟩

theorem learnCheck_keepsHistories (s : State) (sl : Slot) : KeepsHistories s (s.learnCheck sl) := by
  unfold State.learnCheck
  simp only
  split <;> exact ⟨by simp, by simp⟩

theorem endRequest_keepsHistories (s : State) (sl : Slot) (o : JobOutcome) : KeepsHistories s (s.endRequest sl o) := by
  unfold State.endRequest
  simp only
  repeat' split
  all_goals exact ⟨by simp [Drive.unjoined], by simp [Report.followsEnvelope]⟩

theorem startMove_keepsHistories (s : State) (sl : Slot) (j : Job) (x : Int) : KeepsHistories s (s.startMove sl j x) :=
  ⟨rfl, by simp [State.startMove, or_imp, forall_and, Report.followsEnvelope]⟩

theorem runEnded_keepsHistories (s : State) (sl : Slot) (e : RunEnd) : KeepsHistories s (s.runEnded sl e) := by
  unfold State.runEnded
  simp only
  split
  · cases e with
    | outcome o => simp only; split <;> exact ⟨rfl, by simp [Report.followsEnvelope]⟩
    | refComplete =>
      simp only
      split
      · exact startMove_keepsHistories _ _ _ _
      · exact ⟨rfl, by simp [Report.followsEnvelope]⟩
    | rawCount n =>
      unfold State.takeRawCount
      simp only
      split
      · exact ⟨rfl, by simp⟩
      · exact ⟨by simp [State.setReferenced_drive], by simp [Report.followsEnvelope]⟩
    | neverStarted => exact ⟨rfl, by simp⟩
  · exact ⟨rfl, by simp⟩

theorem finishJob_keepsHistories (s : State) (sl : Slot) (o : JobOutcome) : KeepsHistories s (s.finishJob sl o) := by
  unfold State.finishJob State.yieldOver
  simp only
  split
  · constructor
    · split <;> rfl
    · simp only [List.forall_mem_append]
      exact ⟨⟨⟨withdrawals_follow _ _ _, by simp [Report.followsEnvelope]⟩, by simp [Report.followsEnvelope]⟩,
        by simp [Report.followsEnvelope]⟩
  · exact ⟨rfl, by simp⟩

theorem enterOutcome_keepsHistories (s : State) (sl : Slot) (m : Member) (o : JobOutcome) :
    KeepsHistories s (s.enterOutcome sl m o) := by
  unfold State.enterOutcome
  simp only
  repeat' split
  all_goals exact ⟨by simp, by simp⟩

theorem startYield_keepsHistories (s : State) (p : Nat) (sl : Slot) : KeepsHistories s (s.startYield p sl) := by
  unfold State.startYield
  split
  · exact ⟨rfl, by simp [Report.followsEnvelope]⟩
  · split
    · split
      · exact startMove_keepsHistories _ _ _ _
      · exact ⟨rfl, by simp [Report.followsEnvelope]⟩
    · exact ⟨rfl, by simp [Report.followsEnvelope]⟩

theorem startScene_keepsHistories (s : State) (sl : Slot) (id p : Nat) (x : Int) (reference : Bool) :
    KeepsHistories s (s.startScene sl id p x reference) := by
  unfold State.startScene
  simp only
  repeat' split
  case h_2.isFalse.isFalse => exact startMove_keepsHistories _ _ _ _
  all_goals exact ⟨rfl, by simp [State.startReference, Report.followsEnvelope]⟩

theorem startJog_keepsHistories (s : State) (sl : Slot) (dir : Dir) : KeepsHistories s (s.startJog sl dir) := by
  unfold State.startJog
  simp only
  repeat' split
  · exact ⟨rfl, by simp⟩
  · exact startMove_keepsHistories _ _ _ _
  · exact ⟨rfl, by simp [State.startBlind, Report.followsEnvelope]⟩

theorem startQueued_keepsHistories (s : State) (sl : Slot) : KeepsHistories s (s.startQueued sl) := by
  unfold State.startQueued
  split
  · exact ⟨rfl, by simp⟩
  · rename_i q _
    split
    · exact ⟨rfl, by simp⟩
    · cases q.cause with
      | some o => exact ⟨rfl, by cases q.origin <;> simp [or_imp, forall_and, Report.followsEnvelope]⟩
      | none =>
        cases q.origin with
        | scene id p n reference => exact (startScene_keepsHistories _ _ _ _ _ _).after rfl
        | jog dir => exact (startJog_keepsHistories _ _ _).after rfl
        | learn => exact ⟨rfl, by simp [State.startLearn, or_imp, forall_and, Report.followsEnvelope]⟩

/-! ### A whole step -/

/-- A report that a new envelope can bring about keeps the pulse histories, and is answered by such reports alone. -/
theorem handle_keepsHistories (r : Report) (s : State) (h : r.followsEnvelope = true) : KeepsHistories s (handle r s) := by
  cases r with
  | envelope sl => exact handEnvelope_keepsHistories s sl
  | release p => exact release_keepsHistories s p
  | evalYield p => exact evalYield_keepsHistories s p
  | serve p => exact serve_keepsHistories s p
  | decide sl p => exact decideEntry_keepsHistories s sl p
  | withdraw sl p st v0 => exact withdrawClaim_keepsHistories s sl p st v0
  | failEntry sl p f => exact failEntry_keepsHistories s sl p f
  | handRun sl => exact handRun_keepsHistories s sl
  | learnCheck sl => exact learnCheck_keepsHistories s sl
  | driveEntered => exact driveEntered_keepsHistories s
  | supplyCritical => exact ⟨rfl, by simp [handle, State.supplyCritical, State.endAll, Report.followsEnvelope]⟩
  | endRequest sl o => exact endRequest_keepsHistories s sl o
  | endRequests sls o => exact overAll_keepsHistories (fun t sl => endRequest_keepsHistories t sl o) sls s
  | runEnded sl e => exact runEnded_keepsHistories s sl e
  | finishJob sl o => exact finishJob_keepsHistories s sl o
  | startQueued sl => exact startQueued_keepsHistories s sl
  | sceneOutcome sl m o => exact enterOutcome_keepsHistories s sl m o
  | startYield p sl => exact startYield_keepsHistories s p sl
  | serveStake | retest | arbitrate | aduControl | beginWaiting | replaceJob | sceneGates | loadSlot | jogRequest | peerLost
  | peerReturned | peerTests | clearForced | pairTests | unheardEntered | unheardCleared | syncExit => cases h

/-- What a new envelope brings about keeps the pulse histories to the end of the step. -/
theorem settle_histories {e : Effect} (h : ∀ r ∈ e.2, r.followsEnvelope = true) : (settle e).histories = e.1.histories := by
  have hcascade : (cascade reportBound e.2 [] e.1).histories = e.1.histories :=
    cascade_keeps (J := fun t => t.histories = e.1.histories) (R := fun r => r.followsEnvelope = true)
      (fun r t hr ht => ⟨(handle_keepsHistories r t hr).histories.trans ht, (handle_keepsHistories r t hr).reports⟩) _ _ _ _ rfl h
      (by simp)
  obtain ⟨hadu, -⟩ := (cascade reportBound e.2 [] e.1).takeActivity_keeps
  rw [settle, State.histories_of_adu hadu, hcascade]

end Sys2Proof.Machine
end

section
/-! PROOFS. O44: what a hall pulse counts, and what the envelope of the new count does to the run. -/

namespace Sys2Proof.Machine

variable {s t : State} {sl : Slot} {k : Kind} {r : Run} {x lo hi : Int}

/-! ### The pulse counted (R88, R91) -/

/-- The drive record with one hall pulse counted: off, where that takes it to its stop point or ends a relief run by its pulses. -/
def Drive.counted (d : Drive) : Drive :=
  if d.axis = .driving ∧ d.pulsed.arrived = true then
    d.pulsed.braked (match d.pulsed.run with | some r => afterStop r | none => .idle)
  else d.pulsed

theorem State.countPulse_counted (s : State) (sl : Slot) :
    s.countPulse sl = (s.setDrive sl (s.drive sl).counted).writeRetained sl := by
  rw [State.countPulse_eq, Drive.counted]
  split
  · simp [State.driveOff_eq, State.writeRetained, State.setDrive, State.drive, Drive.braked] <;> rfl
  · rfl

/-- What counting a pulse leaves of a record, and the count and the history it sets, whether or not the drive goes off. -/
theorem Drive.counted_reads (d : Drive) :
    d.counted.count = nextCount d.dir d.count ∧ d.counted.pulses = { d.pulses with p0 := d.pulses.p0 + 1 } ∧
      d.counted.referenced = d.referenced ∧ d.counted.hasRange = d.hasRange ∧ d.counted.span = d.span := by
  unfold Drive.counted
  split <;> exact ⟨rfl, rfl, rfl, rfl, rfl⟩

theorem Drive.pulsed_passive {d : Drive} (h : d.axis ≠ .driving) :
    d.pulsed = { d with count := nextCount d.dir d.count, pulses := { d.pulses with p0 := d.pulses.p0 + 1 } } := by
  cases hr : d.run <;> simp [Drive.pulsed, h, hr]

/-- A pulse of a driven run. -/
theorem Drive.pulsed_driving {d : Drive} (h : d.axis = .driving) (hr : d.run = some r) :
    d.pulsed =
      { d with
        count := nextCount d.dir d.count, pulses := { d.pulses with p0 := d.pulses.p0 + 1 }
        run := some { r with pulsesLeft := r.pulsesLeft.map (· - 1) }, stallTimer := some 120, stallHeld := false } := by
  simp [Drive.pulsed, h, hr, Config.stallTime]

/-- A pulse of a driven run that no count of pulses ends. -/
theorem Drive.pulsed_unlimited {d : Drive} (h : d.axis = .driving) (hr : d.run = some r) (hp : r.pulsesLeft = none) :
    d.pulsed =
      { d with
        count := nextCount d.dir d.count, pulses := { d.pulses with p0 := d.pulses.p0 + 1 }, stallTimer := some 120
        stallHeld := false } := by
  have hsame : { r with pulsesLeft := r.pulsesLeft.map (· - 1) } = r := by
    cases r
    cases hp
    rfl
  rw [Drive.pulsed_driving h hr, hsame, ← hr]

/-! ### The envelope of the new count (R21, R91) -/

/-- The next envelope of an axis follows the envelope in force, the views, the seated condition and the axis's own place. -/
theorem State.nextEnvelope_congr (hrole : t.role = s.role) (hclu : t.clu = s.clu) (hseated : t.seated = s.seated)
    (hcount : (t.drive sl).count = (s.drive sl).count) (hrange : (t.drive sl).hasRange = (s.drive sl).hasRange)
    (hspan : (t.drive sl).span = (s.drive sl).span) : t.nextEnvelope sl = s.nextEnvelope sl := by
  have hkind : t.kindAt sl = s.kindAt sl := by rw [State.kindAt, State.kindAt, hrole]
  have hpairs : t.pairsOf sl = s.pairsOf sl := by rw [State.pairsOf, State.pairsOf, hclu]
  have hcond : t.conditionFor sl = s.conditionFor sl := by rw [State.conditionFor, State.conditionFor, hpairs]
  have hfor : t.envelopeFor sl = s.envelopeFor sl := by
    simp only [State.envelopeFor, State.unheldBands, hkind, hpairs, hcond, hseated, hcount, hrange, hspan]
  rw [State.nextEnvelope, State.nextEnvelope, hclu, hkind, hfor, hcond]

theorem State.conditionFor_ne_limits (s : State) (sl : Slot) (lo hi : Int) : s.conditionFor sl ≠ .limits lo hi := by
  unfold State.conditionFor
  split <;> simp

/-- A count envelope recomputed again is the same. -/
theorem State.nextEnvelope_rebuilt (h : s.nextEnvelope sl = .limits lo hi) : (s.buildEnvelope sl).nextEnvelope sl = .limits lo hi := by
  have hfor : s.envelopeFor sl = .limits lo hi := by
    unfold State.nextEnvelope at h
    split at h
    · exact h
    · exact h
    · exact absurd h (s.conditionFor_ne_limits sl lo hi)
    · exact absurd h (s.conditionFor_ne_limits sl lo hi)
  have hget : (s.buildEnvelope sl).clu.envelopes.get sl = .limits lo hi := by
    rw [State.buildEnvelope, h]
    exact (PerSlot.get_set _ sl sl _).trans (if_pos rfl)
  rw [State.nextEnvelope, hget]
  exact hfor

/-- An envelope handed to a DRIVING axis moves its stop point, or turns the drive off (R91). -/
theorem State.onEnvelope_driving (ha : (s.drive sl).axis = .driving) (hr : (s.drive sl).run = some r) :
    s.onEnvelope sl =
      (s.setDrive sl
        (if s.mayDrive sl r (s.drive sl).lock = true then { s.drive sl with stop := s.runStop sl r (s.drive sl).lock }
         else (s.drive sl).braked (afterStop r)), []) := by
  simp only [State.onEnvelope, ha, hr, State.driveOff_eq]
  split <;> rfl

/-- An envelope handed to an axis that neither drives a run nor holds one does nothing. -/
theorem State.onEnvelope_passive (hd : (s.drive sl).axis = .driving → (s.drive sl).run = none) (hh : (s.drive sl).axis ≠ .holding) :
    s.onEnvelope sl = (s, []) := by
  unfold State.onEnvelope
  simp only
  split
  · rename_i ha hr
    rw [hd ha] at hr
    cases hr
  · exact absurd (by assumption) hh
  · rfl

/-- A step whose one report is an envelope that is answered by none ends with it. -/
theorem settle_envelope_drive (h : (s.handEnvelope sl).2 = []) (y : Slot) :
    (settle (s, [.envelope sl])).drive y = (s.handEnvelope sl).1.drive y := by
  have htakes : Takes 1 [.envelope sl] s (s.handEnvelope sl).1 :=
    .answer rfl (by rw [show (handle (.envelope sl) s).2 = [] from h]; exact .nil _)
  rw [Takes.settle (e := (s, [.envelope sl])) htakes (by decide), State.drive, (State.takeActivity_keeps _).1]
  rfl

/-! ### The retained record (R87, R88, R166) -/

/-- The retained record of a slot is that of its drive. -/
def State.Recorded (s : State) (sl : Slot) : Prop := s.rcs.retained.get sl = ⟨(s.drive sl).count, (s.drive sl).referenced⟩

theorem State.Recorded.of_same (h : s.Recorded sl) (hr : t.rcs.retained = s.rcs.retained) (hd : t.adu = s.adu) : t.Recorded sl := by
  rw [State.Recorded, hr, State.drive, hd]
  exact h

theorem State.recorded_writeRetained (s : State) (sl : Slot) : (s.writeRetained sl).Recorded sl :=
  (PerSlot.get_set _ sl sl _).trans (if_pos rfl)

/-- A retained record that is its drive's stays so: an operation writes both or neither. -/
theorem Evolves.recorded {loose : Prop} (h : Evolves loose s t) (x : Slot) (hs : s.Recorded x) : t.Recorded x := by
  induction h with
  | trans _ _ a b => exact b (a hs)
  | activity s => obtain ⟨a, h⟩ := s.noteActivity_eq; rw [h]; exact hs
  | drive s sl d h =>
    rw [State.Recorded, State.drive_setDrive]
    split
    · rename_i hx
      subst hx
      rw [h.count, h.referenced]
      exact hs
    · exact hs
  | moved s v st hv hm =>
    obtain ⟨es, h⟩ := State.moveView_eq s v st
    rw [h]
    exact hs
  | unreferenced s sl =>
    by_cases hx : sl = x
    · subst hx
      exact (State.recorded_writeRetained (s.setDrive sl { s.drive sl with referenced := false }) sl).of_same rfl rfl
    · rw [State.Recorded, State.setReferenced_drive, if_neg hx]
      exact ((PerSlot.get_set _ sl x _).trans (if_neg hx)).trans hs
  | wake s =>
    obtain ⟨hadu, -, -, -, -, -, -, hrcs, -⟩ := State.takeActivity_keeps s
    exact hs.of_same (by rw [hrcs]) hadu
  | _ => exact hs

/-! ### A whole hall pulse -/

/-- The state from which a hall pulse builds the envelope: the record counted and written, the entries behind the axis marked. -/
def State.pulseTaken (s : State) (sl : Slot) (js : PerSlot Job) : State :=
  { (s.setDrive sl (s.drive sl).counted).writeRetained sl with mvc := { s.mvc with jobs := js } }

theorem State.pulse_eq (s : State) (sl : Slot) : ∃ js, s.pulse sl = ((s.pulseTaken sl js).buildEnvelope sl, [.envelope sl]) := by
  simp only [State.pulse, State.countPulse_counted]
  split
  · exact ⟨s.mvc.jobs, rfl⟩
  · obtain ⟨es, h | h⟩ := ((s.setDrive sl (s.drive sl).counted).writeRetained sl).markPassed_eq sl <;> rw [h]
    · exact ⟨_, rfl⟩
    · exact ⟨s.mvc.jobs, rfl⟩

theorem State.pulseTaken_drive (s : State) (sl y : Slot) (js : PerSlot Job) :
    (s.pulseTaken sl js).drive y = if sl = y then (s.drive sl).counted else s.drive y := State.drive_setDrive s sl y _

theorem State.pulseTaken_passages (s : State) (sl : Slot) (js : PerSlot Job) :
    SamePassages (s.setDrive sl { s.drive sl with count := nextCount (s.drive sl).dir (s.drive sl).count }) (s.pulseTaken sl js) := by
  refine .ofClu ⟨rfl, rfl, rfl, rfl, rfl, rfl, rfl, rfl, rfl, rfl, rfl, rfl, rfl, rfl, rfl, rfl, fun y => ?_⟩ rfl rfl rfl rfl
  rw [State.pulseTaken_drive, State.drive_setDrive]
  split
  · exact (s.drive sl).counted_reads.1
  · rfl

/-- What a hall pulse does in any state of its axis: the count moves, the retained record is the drive's, and the history has the pulse,
to the end of the step. -/
theorem State.settle_pulse (s : State) (sl : Slot) :
    SamePassages (s.setDrive sl { s.drive sl with count := nextCount (s.drive sl).dir (s.drive sl).count }) (settle (s.pulse sl)) ∧
      (settle (s.pulse sl)).Recorded sl ∧
      ((settle (s.pulse sl)).drive sl).pulses = { (s.drive sl).pulses with p0 := (s.drive sl).pulses.p0 + 1 } := by
  obtain ⟨js, h⟩ := s.pulse_eq sl
  rw [h]
  let e : Effect := ((s.pulseTaken sl js).buildEnvelope sl, [.envelope sl])
  have hlocal : AllLocal e.2 := by simp [e, Report.isLocal]
  have hrest := settle_evolves (loose := False) e (.inr hlocal)
  have hbuild : Evolves False (s.pulseTaken sl js) e.1 := .rebuilt _ sl
  refine ⟨(s.pulseTaken_passages sl js).trans (hbuild.trans hrest).passages, (hbuild.trans hrest).recorded sl ?_, ?_⟩
  · exact ((s.setDrive sl (s.drive sl).counted).recorded_writeRetained sl).of_same rfl rfl
  · have hkept : (settle e).histories sl = ((s.pulseTaken sl js).drive sl).pulses :=
      congrFun (settle_histories (e := e) (by simp [e, Report.followsEnvelope])) sl
    obtain ⟨-, hpulses, -⟩ := (s.drive sl).counted_reads
    rw [State.pulseTaken_drive, if_pos rfl, hpulses] at hkept
    exact hkept

/-- A hall pulse at whose end the axis neither drives a run nor holds one does no more than count. -/
theorem State.settle_pulse_passive (hd : (s.drive sl).counted.axis = .driving → (s.drive sl).counted.run = none)
    (hh : (s.drive sl).counted.axis ≠ .holding) : (settle (s.pulse sl)).drive sl = (s.drive sl).counted := by
  obtain ⟨js, h⟩ := s.pulse_eq sl
  rw [h]
  let u := ((s.pulseTaken sl js).buildEnvelope sl).buildEnvelope sl
  have hdrive : u.drive sl = (s.drive sl).counted := (s.pulseTaken_drive sl sl js).trans (if_pos rfl)
  have henv : ((s.pulseTaken sl js).buildEnvelope sl).handEnvelope sl = (u, []) :=
    State.onEnvelope_passive (s := u) (by rw [hdrive]; exact hd) (by rw [hdrive]; exact hh)
  rw [settle_envelope_drive (by rw [henv]), henv]
  exact hdrive

/-- A hall pulse of a driven run that does not reach its stop point: the envelope of the new count moves the stop point, or turns the
drive off. -/
theorem State.settle_pulse_driving (ha : (s.drive sl).axis = .driving) (hr : (s.drive sl).pulsed.run = some r)
    (hgo : (s.drive sl).pulsed.arrived = false) :
    ∃ u : State, u.kindAt sl = s.kindAt sl ∧ u.drive sl = (s.drive sl).pulsed ∧
      (∀ lo hi, (s.setDrive sl { s.drive sl with count := nextCount (s.drive sl).dir (s.drive sl).count }).nextEnvelope sl =
        .limits lo hi → u.clu.envelopes.get sl = .limits lo hi) ∧
      (settle (s.pulse sl)).drive sl =
        if u.mayDrive sl r (s.drive sl).lock = true then { (s.drive sl).pulsed with stop := u.runStop sl r (s.drive sl).lock }
        else (s.drive sl).pulsed.braked (afterStop r) := by
  obtain ⟨js, h⟩ := s.pulse_eq sl
  rw [h]
  have hcounted : (s.drive sl).counted = (s.drive sl).pulsed := if_neg (by simp [hgo])
  have hwd : (s.pulseTaken sl js).drive sl = (s.drive sl).pulsed := by rw [State.pulseTaken_drive, if_pos rfl, hcounted]
  have hnext : (s.pulseTaken sl js).nextEnvelope sl =
      (s.setDrive sl { s.drive sl with count := nextCount (s.drive sl).dir (s.drive sl).count }).nextEnvelope sl := by
    refine State.nextEnvelope_congr rfl rfl rfl ?_ ?_ ?_
    all_goals rw [hwd, State.drive_setDrive, if_pos rfl]; rfl
  let u := ((s.pulseTaken sl js).buildEnvelope sl).buildEnvelope sl
  have hud : u.drive sl = (s.drive sl).pulsed := hwd
  have henv := State.onEnvelope_driving (s := u) (sl := sl) (r := r) (by rw [hud]; exact ha) (by rw [hud]; exact hr)
  rw [hud] at henv
  refine ⟨u, rfl, hud, fun lo hi he => ?_, ?_⟩
  · rw [← hnext] at he
    exact ((PerSlot.get_set _ sl sl _).trans (if_pos rfl)).trans (State.nextEnvelope_rebuilt he)
  · rw [settle_envelope_drive (congrArg Prod.snd henv), State.handEnvelope, henv, State.drive_setDrive, if_pos rfl]
    rfl

/-- A pulse that takes a driven run to its stop point, or a relief run to its last pulse, turns the drive off (R91, R104). -/
theorem State.settle_pulse_arrived (ha : (s.drive sl).axis = .driving) (hr : (s.drive sl).pulsed.run = some r)
    (hgo : (s.drive sl).pulsed.arrived = true) : (settle (s.pulse sl)).drive sl = (s.drive sl).pulsed.braked (afterStop r) := by
  have hcounted : (s.drive sl).counted = (s.drive sl).pulsed.braked (afterStop r) := by
    rw [Drive.counted, if_pos ⟨ha, hgo⟩, hr]
  rw [State.settle_pulse_passive (by rw [hcounted]; exact fun h => nomatch h) (by rw [hcounted]; exact fun h => nomatch h), hcounted]

/-- An axis that is still DRIVING after a pulse has its stall timer restarted and no held expiry (R99). -/
theorem State.settle_pulse_stall (ha : (s.drive sl).axis = .driving) (ht : ((settle (s.pulse sl)).drive sl).axis = .driving) :
    ((settle (s.pulse sl)).drive sl).stallTimer = some 120 ∧ ((settle (s.pulse sl)).drive sl).stallHeld = false := by
  have hstall : (s.drive sl).pulsed.stallTimer = some 120 ∧ (s.drive sl).pulsed.stallHeld = false := by
    simp [Drive.pulsed, ha, Config.stallTime]
  have hbraked : ∀ a, (settle (s.pulse sl)).drive sl ≠ (s.drive sl).pulsed.braked a := fun a h => by
    rw [h] at ht
    cases ht
  cases hr : (s.drive sl).pulsed.run with
  | none =>
    have hcounted : (s.drive sl).counted = (s.drive sl).pulsed := if_neg (by simp [Drive.arrived, hr])
    rw [State.settle_pulse_passive (by rw [hcounted]; exact fun _ => hr)
      (by rw [hcounted]; exact fun h => nomatch (ha.symm.trans h)), hcounted]
    exact hstall
  | some r =>
    cases hgo : (s.drive sl).pulsed.arrived with
    | true => exact absurd (State.settle_pulse_arrived ha hr hgo) (hbraked _)
    | false =>
      obtain ⟨u, -, -, -, hdrive⟩ := State.settle_pulse_driving ha hr hgo
      split at hdrive
      · rw [hdrive]
        exact hstall
      · exact absurd hdrive (hbraked _)

/-- A pulse of a run to a target: the drive goes on to the stop point of the new envelope, or off at that one or at the former one. -/
theorem State.settle_pulse_target {y : Int} (hk : s.kindAt sl = some k) (ha : (s.drive sl).axis = .driving)
    (hr : (s.drive sl).run = some r) (hp : r.pulsesLeft = none) (hs : (s.drive sl).stop = some y) (hx : r.target = some x)
    (he : (s.setDrive sl { s.drive sl with count := nextCount (s.drive sl).dir (s.drive sl).count }).nextEnvelope sl = .limits lo hi) :
    let d := s.drive sl
    let stop := stopPoint r.dir x lo hi (coastAllowance k d.lock)
    (settle (s.pulse sl)).drive sl =
      if beyond r.dir y (nextCount d.dir d.count) = true ∧ beyond r.dir stop (nextCount d.dir d.count) = true then
        { d.pulsed with stop := some stop }
      else d.pulsed.braked (afterStop r) := by
  intro d stop
  have hpulsed : d.pulsed = _ := Drive.pulsed_unlimited ha hr hp
  have hrun : d.pulsed.run = some r := by rw [hpulsed]; exact hr
  have harrived : d.pulsed.arrived = !beyond r.dir y (nextCount d.dir d.count) := by
    rw [hpulsed, Drive.arrived]
    simp [d, hr, hp, hs]
  cases hgo : beyond r.dir y (nextCount d.dir d.count) with
  | false =>
    rw [if_neg (by simp)]
    exact State.settle_pulse_arrived ha hrun (by rw [harrived, hgo]; rfl)
  | true =>
    obtain ⟨u, huk, hud, hue, hdrive⟩ := State.settle_pulse_driving ha hrun (by rw [harrived, hgo]; rfl)
    have hcount : (u.drive sl).count = nextCount d.dir d.count := by rw [hud]; rfl
    rw [State.mayDrive_limits (huk.trans hk) (hue lo hi he) hx, State.runStop_limits (huk.trans hk) (hue lo hi he) hx, hcount] at hdrive
    simpa [d, stop] using hdrive

/-- Settles O44: the parts of a hall pulse (`State.settle_pulse`, and the drive record by what the pulse reaches), read in the statement's
terms. -/
theorem hallPulseCounts : Obligations.HallPulseCounts := by
  intro s sl n hst hk d c p
  have hc : c = nextCount d.dir d.count := by
    simp only [c]
    cases d.dir <;> rfl
  let u := s.withSense n
  obtain ⟨hpass, hrecorded, hpulses⟩ := u.settle_pulse sl
  have hcount : ((settle (u.pulse sl)).drive sl).count = c := by
    rw [hpass.counts, State.drive_setDrive, if_pos rfl]
    exact hc.symm
  refine ⟨_, if_pos ⟨hst, hk⟩, ?_, ?_, hpulses, fun ha ht => State.settle_pulse_stall (s := u) ha ht, fun hd hh => ?_, ?_,
    fun r ha hr ho hp => ?_⟩
  · rw [hc]
    exact (State.withSense_passages _ n).trans hpass
  · rw [← hcount]
    exact hrecorded
  · have hcounted : (u.drive sl).counted = { d with count := c, pulses := p } := by
      rw [hc, ← Drive.pulsed_passive hd]
      exact if_neg (fun h => hd h.1)
    rw [State.settle_pulse_passive (by rw [hcounted]; exact fun h => absurd h hd) (by rw [hcounted]; exact hh), hcounted]
  · intro r stop x lo hi ha hr hp hs hx he ahead allowance next
    obtain ⟨k, hk⟩ := Option.isSome_iff_exists.mp hk
    have hahead (y : Int) : ahead y ↔ beyond r.dir y c = true := (beyond_iff r.dir y c).symm
    have hnext : next = stopPoint r.dir x lo hi (coastAllowance k d.lock) := by
      simp only [next, allowance, hk]
      cases r.dir <;> rfl
    have hpulsed : (u.drive sl).pulsed = { d with count := c, pulses := p, stallTimer := some 120, stallHeld := false } := by
      rw [hc]
      exact Drive.pulsed_unlimited ha hr hp
    have hdrive := State.settle_pulse_target (s := u) hk ha hr hp hs hx (by rw [hc] at he; exact he)
    dsimp only at hdrive
    rw [hpulsed] at hdrive
    refine ⟨fun hstop hgo => ?_, fun hnot => ?_⟩
    · rw [hahead, hc] at hstop hgo
      rw [hnext] at hgo ⊢
      exact hdrive.trans (if_pos ⟨hstop, hgo⟩)
    · rw [hahead, hahead, hnext, ← not_and_or, hc] at hnot
      exact hdrive.trans (if_neg hnot)
  · have hrun : (u.drive sl).pulsed = _ := Drive.pulsed_driving ha hr
    rw [hp] at hrun
    have hafter : afterStop { r with pulsesLeft := some 0 } = .ended .obstructed := if_pos ho
    rw [State.settle_pulse_arrived (s := u) (r := { r with pulsesLeft := some 0 }) ha (by rw [hrun]; rfl) (by simp [hrun, Drive.arrived]),
      hrun, hc, hafter]
    rfl

end Sys2Proof.Machine
end

section
/-! PROOFS. What a frame's fields read as where they lie outside their defined codes (O41), and an attempt that ends without its frame
completing (O34). -/

namespace Sys2Proof.Machine

/-! ### Fields outside their codes (R159) -/

theorem standingOf_undefined {n : Nat} (h : 4 ≤ n) : standingOf n = none := by
  obtain ⟨m, rfl⟩ := Nat.exists_eq_add_of_le' h
  rfl

theorem reasonOf_undefined {n : Nat} (h : 7 ≤ n) : reasonOf n = none := by
  obtain ⟨m, rfl⟩ := Nat.exists_eq_add_of_le' h
  rfl

theorem speedOf_undefined {n : Nat} (h : 3 ≤ n) : speedOf n = none := by
  obtain ⟨m, rfl⟩ := Nat.exists_eq_add_of_le' h
  rfl

theorem axisOf_undefined {n : Nat} (h : 6 ≤ n) : axisOf n = .fault := by
  obtain ⟨m, rfl⟩ := Nat.exists_eq_add_of_le' h
  rfl

theorem payload_decline {f : Frame} (h : f.kind = kDecline) : payload f = .decline (f.byte 0) (reasonOf (f.byte 1)) := by
  simp [payload, h, kDecline, kStop, kStake, kClaim, kCede]

theorem payload_vehicle {f : Frame} (h : f.kind = kVehicle) : payload f = .vehicle (speedOf (f.byte 0)) (bitOf (f.byte 1) 0) := by
  simp [payload, h, kVehicle, kStop, kStake, kClaim, kCede, kDecline, kScene, kLearn]

theorem payload_status {f : Frame} (h : f.kind = kStatus) : payload f = .status (statusAt f) := by
  simp [payload, h, kStatus, kStop, kStake, kClaim, kCede, kDecline, kScene, kLearn, kVehicle]

/-- A slot's record stands in five bytes from byte 8 on (R159). -/
theorem statusAt_slot (f : Frame) (sl : Slot) : (statusAt f).slots.get sl = slotAt f (8 + 5 * slotIndex sl) := by cases sl <;> rfl

theorem intervalOf_eq (lo hi : Nat) :
    intervalOf lo hi = if min hi 1000 < min lo 1000 then ⟨0, 1000⟩ else ⟨(min lo 1000 : Nat), (min hi 1000 : Nat)⟩ := rfl

/-- Settles O41: each field is read by its own table of codes. -/
theorem undefinedFieldsRead : Obligations.UndefinedFieldsRead := by
  intro f
  refine ⟨fun hk h => ?_, fun hk h => ?_, fun hk h => ?_, fun hk => ⟨_, payload_status hk, fun h => ?_, fun sl => ⟨fun h => ?_, ?_⟩⟩⟩
  · rw [payload_claim hk, standingOf_undefined h]
  · rw [payload_decline hk, reasonOf_undefined h]
  · rw [payload_vehicle hk, speedOf_undefined h]
  · exact (congrArg levelOf h : levelOf (f.byte 1 / 32 % 4) = .unknown)
  · rw [statusAt_slot]
    exact axisOf_undefined h
  · rw [statusAt_slot]
    exact intervalOf_eq _ _

/-! ### An attempt that ends (R147, R154, R156) -/

/-- The interface after an attempt of a frame has ended without completing. -/
theorem Bif.attemptEnds_eq {b : Bif} {f : Frame} (h : b.attempt = some f) :
    b.attemptEnds =
      { b with
        attempt := none
        status := if f.kind = kStatus ∧ b.statusBeside.isSome = true then b.statusBeside else b.status
        statusBeside := if f.kind = kStatus then none else b.statusBeside } := by
  by_cases hk : f.kind = kStatus <;> simp [Bif.attemptEnds, Bif.statusAttempt, h, hk]

/-- Settles O34: an attempt ends in one way, and an error counts on it. -/
theorem attemptFails : Obligations.AttemptFails := by
  intro s f hf ended
  have hended : s.bus.attemptEnds = ended := Bif.attemptEnds_eq hf
  have hsome : s.bus.attempt.isSome = true := by rw [hf]; rfl
  refine ⟨?_, fun noAck => ?_⟩
  · simp only [exec, execArbitrationLost, hsome, if_true, hended]
    rfl
  · intro errors
    have herrors : errorsAfter s.bus.errors noAck = errors := by
      simp only [errorsAfter, Bool.and_eq_true, decide_eq_true_eq, errors]
    refine ⟨fun h => ?_, fun h => ?_⟩
    · simp only [exec, execAttemptError, hsome, if_true, hended, herrors, gt_iff_lt, not_lt.mpr h, if_false]
      rfl
    · simp only [exec, execAttemptError, hsome, if_true, hended, herrors, gt_iff_lt, h]
      rfl

end Sys2Proof.Machine
end

section
/-! PROOFS. The own DECLINE's echo (O12), and passage frames that are taken and not applied (O15). -/

namespace Sys2Proof.Machine

variable {s t : State}

/-! ### The own DECLINE's echo (R43) -/

theorem State.ownDecline_local (s : State) (v : View) : AllLocal (s.ownDecline v).2 := by
  unfold State.ownDecline
  cases v.state with
  | ownWait => exact s.viewTo_local _ _
  | opened | pending | own | peer | queued | barred | conflict | heldA | heldB => exact AllLocal.nil

theorem State.ownDecline_other {v : View} (h : v.state ≠ .ownWait) : s.ownDecline v = (s, []) := by
  unfold State.ownDecline
  cases hst : v.state with
  | ownWait => exact absurd hst h
  | opened | pending | own | peer | queued | barred | conflict | heldA | heldB => rfl

/-- Settles O12: the echo ends the wait alone, and the reports that follow keep the view. -/
theorem ownDeclineEndsWait : Obligations.OwnDeclineEndsWait := by
  intro s n f rest v h hv hp
  have hpair := State.view?_some_pair hv
  obtain ⟨l1, _, _, _, l5, _⟩ := v.landed_frame .decline
  let u := (s.frameTaken n).updView v.pair (View.landed .decline)
  have hu : u.view? v.pair = some (v.landed .decline) :=
    State.view?_updView_self (by rw [State.frameTaken_view?, hpair]; exact hv) (fun w => (w.landed_frame .decline).1)
  have hx : exec (.ownDeclineEcho n) s = .next (settle ((u.ownDecline (v.landed .decline)).thenServe v.pair)) :=
    congrArg (fun e => Host.Outcome.next (settle e)) (h.takeEcho hv hp n .decline State.ownDecline)
  have hpass : SamePassages (s.leaving rest) u := (State.frameTaken_passages h.head n).trans (State.landed_passages _ _ _)
  have hend : ∀ {S : State}, SamePassages S (u.ownDecline (v.landed .decline)).1 → SamePassages S _ := fun hS =>
    settle_thenServe_passages hS (State.ownDecline_local _ _) v.pair
  refine ⟨_, hx, fun hw => ?_, fun hw => hend (by rw [State.ownDecline_other (by rw [l5]; exact hw)]; exact hpass)⟩
  have hown : u.ownDecline (v.landed .decline) = u.viewTo v.pair .own := by simp only [State.ownDecline, l5, hw, l1]
  have hview := hpass.viewTo hu (by rw [View.landed_peerRole]; exact hp) (st := .own) (by simp [l5, hw]) (by simp)
  have ht := hend (by rw [hown]; exact hview)
  refine ⟨ht, ?_⟩
  have hv' : ((s.leaving rest).viewAs v.pair .own none).view? v.pair = _ :=
    State.view?_updView_self (show (s.leaving rest).view? v.pair = some v by rw [hpair]; exact hv) (fun _ => rfl)
  obtain ⟨w, hw', _, _, _, hs1, _, hs2, _⟩ := ht.views _ _ hv' hp
  exact ⟨w, hw', hs1, hs2.elim id id⟩

/-! ### Passage frames that are not applied (R37) -/

/-- The echo of an own passage frame, for a pair off the clearance list or a self pair. -/
theorem TakesFrame.takeEcho_none {kind : Nat} {f : Frame} {rest : List RxFrame} (h : TakesFrame s kind true f rest)
    (hv : ∀ v, s.view? (f.byte 0) = some v → v.peerRole = none) (n : Nat) (k : PassageKind) (act : State → View → Effect) :
    (s.withSense n).takeEcho kind k act = (s.frameTaken n, []) := by
  have hv' : (s.withSense n).popRx.noteActivity.view? (f.byte 0) = s.view? (f.byte 0) := s.frameTaken_view? n _
  simp only [State.takeEcho, h.headIs n, h.taking' n, if_true, hv']
  cases hview : s.view? (f.byte 0) with
  | none => rfl
  | some v => simp only [hv v hview, Option.isSome_none, Bool.false_eq_true, if_false]; rfl

/-- A passage frame of a role that is not the peer of its pair. -/
theorem TakesFrame.takePeer_none {kind : Nat} {f : Frame} {rest : List RxFrame} (h : TakesFrame s kind false f rest)
    (hv : ∀ v, s.view? (f.byte 0) = some v → v.peerRole.map roleCode ≠ some f.sender) (n : Nat)
    (act : State → View → Frame → Effect) :
    (s.withSense n).takePeer kind act = (s.frameTaken n, []) := by
  have hv' : (s.withSense n).popRx.noteActivity.view? (f.byte 0) = s.view? (f.byte 0) := s.frameTaken_view? n _
  simp only [State.takePeer, h.headIs n, h.taking' n, h.isClash n, if_true, hv', Bool.false_eq_true, if_false]
  cases hview : s.view? (f.byte 0) with
  | none => rfl
  | some v => simp only [if_neg (hv v hview)]; rfl

/-- A frame that is taken with no effect leaves every view, job and drive. -/
theorem settle_frameTaken {kind : Nat} {echo : Bool} {f : Frame} {rest : List RxFrame} (h : TakesFrame s kind echo f rest) (n : Nat) :
    let t := settle (s.frameTaken n, [])
    SamePassages (s.leaving rest) t ∧ t.clu = s.clu ∧ t.mvc = s.mvc ∧ t.adu = s.adu := by
  obtain ⟨hadu, -, -, hclu, -, hmvc, -⟩ := (s.frameTaken n).takeActivity_keeps
  exact ⟨(State.frameTaken_passages h.head n).trans (settle_passages (e := (s.frameTaken n, [])) AllLocal.nil),
    hclu.trans (by simp), hmvc.trans (by simp), hadu.trans (by simp)⟩

/-- Settles O15: each of the eight frames that finds no view of its sender's is an activity event and nothing more. -/
theorem passageNotApplied : Obligations.PassageNotApplied := by
  constructor
  · intro s n k c f rest hc h hv
    have hx : exec c s = .next (settle (s.frameTaken n, [])) := by
      simp only [List.mem_cons, Prod.mk.injEq, List.not_mem_nil, or_false] at hc
      rcases hc with ⟨rfl, rfl⟩ | ⟨rfl, rfl⟩ | ⟨rfl, rfl⟩ | ⟨rfl, rfl⟩ <;>
        exact congrArg (fun e => Host.Outcome.next (settle e)) (h.takeEcho_none hv n _ _)
    exact ⟨_, hx, settle_frameTaken h n⟩
  · intro s n k c f rest hc h hv
    have hx : exec c s = .next (settle (s.frameTaken n, [])) := by
      simp only [List.mem_cons, Prod.mk.injEq, List.not_mem_nil, or_false] at hc
      rcases hc with ⟨rfl, rfl⟩ | ⟨rfl, rfl⟩ | ⟨rfl, rfl⟩ | ⟨rfl, rfl⟩ <;>
        exact congrArg (fun e => Host.Outcome.next (settle e)) (h.takePeer_none hv n _)
    exact ⟨_, hx, settle_frameTaken h n⟩

end Sys2Proof.Machine
end

section
/-! PROOFS. O14 fails: nothing in its hypotheses has the envelope of the axis contain its count. -/

namespace Sys2Proof.Machine

/-! ### A station with an envelope that the count has left -/

/-- M60 in RUN. The SLIDE drives up from 300 of 1000 under an envelope that ends at 100, so that its interval reads [100, 300] and meets
the band [0, 120] of pair 0. The job has claimed the pair, and its CLAIM waits in a general slot. -/
def staleEnvelope : State :=
  { State.underReset Rcs.initial [] with
    station := .run, role := some .m60
    clu :=
      { views := [{ newView 0 .s0 ⟨0, 120⟩ (.peer .fl .back ⟨0, 150⟩) with state := .pending, inFlight := some .claim }]
        envelopes := ⟨.limits 100 100, .frozen, .frozen⟩, due := [] }
    adu := ⟨{ Drive.blank with axis := .driving, dir := .up, referenced := true, count := 300, span := 1000 }, .blank, .blank⟩
    mvc := { (State.underReset Rcs.initial []).mvc with
      jobs := ⟨{ Job.free with active := true, handed := true, dir := .up, entries := [⟨0, .claimed⟩] }, .free, .free⟩ }
    smon := { level := .ok, recovery := 0, driveSet := ⟨true, false, false⟩, timer := some 10 }
    bus := { (State.underReset Rcs.initial []).bus with general := [passageFrame kClaim .m60 0 0] } }

theorem staleEnvelope_drivesJob : staleEnvelope.DrivesJob .s0 where
  active := rfl
  cause := rfl
  handed := rfl
  taken := rfl
  none_waits := rfl
  writing := rfl
  queued := rfl
  driving := rfl
  listed := rfl
  main := nofun

/-- The envelope that entry into CONFLICT builds holds the count, and the interval reads 300 and more, above the band. The withdrawal of
the CLAIM has the pair tested for release before the entry fails, and that test makes the entry PASSED. -/
theorem staleEnvelope_enterConflict : ((settle (staleEnvelope.enterConflict 0)).job .s0).entries = [⟨0, .passed⟩] := by decide

/-- Refutes O14: entry into CONFLICT is to leave the job's entry FAILED, and in `staleEnvelope` the entry is PASSED before it can fail.
The model's own envelopes contain the count (R21), but the statement speaks of every state. -/
theorem not_stakeFramesMoveView : ¬ Obligations.StakeFramesMoveView := by
  intro h
  obtain ⟨-, -, -, hconflict, -⟩ := h
  obtain ⟨-, -, hfailed⟩ := hconflict staleEnvelope 0 _ .claimed rfl (by decide) (by decide) (by decide) staleEnvelope_drivesJob rfl
    (by decide) rfl (.inr (.inl rfl))
  have hentry := staleEnvelope_enterConflict.symm.trans hfailed
  simp at hentry

end Sys2Proof.Machine
end

section
/-! PROOFS. O36 fails: nothing in its hypotheses keeps another axis from beginning to drive at the rejoin. -/

namespace Sys2Proof.Machine

/-! ### A station whose rejoin lets another axis drive -/

/-- M60 in bus-off. The SLIDE's job has its claims on pairs 0 and 1 due. The BACK holds a run and waits for the self pair 2, which the TIP
holds and stands outside of. -/
def backWaits : State :=
  { State.underReset Rcs.initial [] with
    station := .run, role := some .m60
    clu :=
      { views :=
          [ { newView 0 .s0 ⟨0, 120⟩ (.peer .fl .back ⟨0, 150⟩) with state := .opened },
            { newView 1 .s0 ⟨780, 1000⟩ (.peer .fl .slide ⟨850, 1000⟩) with state := .opened },
            { newView 2 .s1 ⟨0, 100⟩ (.self .s2 ⟨500, 1000⟩) with state := .heldB, waiting := some .a } ]
        envelopes := .all .frozen, due := [⟨0, .claim, none⟩, ⟨1, .claim, none⟩] }
    adu :=
      ⟨{ Drive.blank with axis := .idle },
        { Drive.blank with
          axis := .holding
          run := some { origin := .jog, dir := .up, target := none, speed := .creep, secondLeg := false, pulsesLeft := none } },
        { Drive.blank with axis := .idle, referenced := true, span := 1000 }⟩
    mvc := { (State.underReset Rcs.initial []).mvc with
      jobs := ⟨{ Job.free with active := true, entries := [⟨0, .needed⟩, ⟨1, .needed⟩] }, .free, .free⟩ }
    smon := { level := .ok, recovery := 0, driveSet := .all false, timer := some 200 }
    bus := { (State.underReset Rcs.initial []).bus with busOff := some 200 } }

/-- Under a supply below 9 V on VSENSE the rejoin sends no claim: the test of release gives the BACK the self pair, the BACK begins to
drive, the sample of R134 finds the supply CRITICAL, and the end of the SLIDE's job withdraws both claims. -/
theorem backWaits_rejoins : ∃ t, exec (.busOffTimerExpiry 0) backWaits = .next t ∧ t.bus.general ++ t.clu.waiting = [] :=
  ⟨_, rfl, by decide⟩

/-- Refutes O36: the rejoin is to send the two claims of one job that are due, and that of `backWaits` withdraws them in the same step.
A job that the model starts has an entry for each pair its axis waits for, but the statement speaks of every state. -/
theorem not_rejoinAfterBusOff : ¬ Obligations.RejoinAfterBusOff := by
  intro h
  obtain ⟨-, -, hsent⟩ := h
  obtain ⟨t, x, y, z, ht, hframes⟩ := hsent backWaits 0 .m60 .s0 0 1 _ _ rfl rfl rfl rfl rfl (by decide) rfl rfl (by decide) rfl rfl
    (by decide) (fun y hy => match y with | .s0 => absurd rfl hy | .s1 | .s2 => rfl)
  obtain ⟨u, hu, hnone⟩ := backWaits_rejoins
  obtain rfl : t = u := Host.Outcome.next.inj (ht.symm.trans hu)
  rw [hnone] at hframes
  simp at hframes

end Sys2Proof.Machine
end

section
/-! PROOFS. A NEEDED entry decided by the view of its pair (O16), and the failure of an entry (O17). -/

namespace Sys2Proof.Machine

variable {s t : State}

/-! ### A NEEDED entry on a peer pair (R48) -/

theorem passageFrame_claim (own : Role) (p : Nat) (st : Standing) :
    passageFrame kClaim own p (standingCode st) = encode (roleCode own) (.claim p (some st)) := by
  simp [passageFrame, encode, identOf, Nat.mul_comm]

section
variable {sl : Slot} {p : Nat} {v : View} (ha : (s.job sl).active = true) (he : (s.job sl).entryOf p = some .needed)
  (hv : s.view? p = some v) (hp : v.peerRole.isSome = true)
include ha he hv hp

/-- What the view of a peer pair makes of a NEEDED entry (R48). -/
theorem State.decideEntry_peer :
    s.decideEntry sl p =
      if v.claimWaits = true then (s, [])
      else
        match v.state with
        | .own | .ownWait => (s.setJob sl ((s.job sl).mark p grantStatus), [.learnCheck sl])
        | .opened | .pending =>
          if s.unheard = true then (s, [.failEntry sl p .unheard])
          else if s.mayHand v = true then s.claimOpen sl p
          else (s.recordDue p .claim, [])
        | .peer =>
          if s.unheard = true then (s, [.failEntry sl p .unheard])
          else if s.mayHand v = true then
            ((s.setJob sl ((s.job sl).mark p (fun _ => .claimed))).handClaim p (s.job sl).standing, [])
          else (s.recordDue p .claim, [])
        | .queued => (s.setJob sl ((s.job sl).mark p (fun _ => .claimed)), [])
        | .barred => (s, [.failEntry sl p .peerLost])
        | .conflict => s.claimInConflict sl v
        | .heldA | .heldB => (s, []) := by
  cases ho : v.other with
  | self sb b => simp [View.peerRole, ho] at hp
  | peer r k b =>
    simp only [State.decideEntry, ha, he, hv, ho, and_self, if_true] <;> rfl

end

theorem View.claimWaits_false {v : View} (hf : v.inFlight = none) (hc : v.cedeDue = false) : v.claimWaits = false := by
  simp [View.claimWaits, hf, hc]

theorem State.mayHand_of {v : View} (hf : v.inFlight = none) (hrun : s.station = .run) (hb : s.bus.busOff = none) :
    s.mayHand v = true := by
  simp [State.mayHand, hf, hrun, hb]

theorem Job.entryOf_mark_other (j : Job) {p q : Nat} (h : q ≠ p) (g : EntryStatus → EntryStatus) :
    (j.mark p g).entryOf q = j.entryOf q := by
  unfold Job.entryOf Job.mark
  induction j.entries with
  | nil => rfl
  | cons e es ih =>
    by_cases hq : e.pair = q
    · have : e.pair ≠ p := fun hp => h (hq.symm.trans hp)
      simp [hq, h]
    · by_cases hp : e.pair = p <;> simp_all

/-- A job's record written with its entry of a pair in another status: what O16 calls entered. -/
theorem State.setJob_mark {sl : Slot} {p : Nat} {st st' : EntryStatus} (he : (s.job sl).entryOf p = some st)
    (g : EntryStatus → EntryStatus) (hg : g st = st') :
    let t := s.setJob sl ((s.job sl).mark p g)
    t = s.setJob sl (t.job sl) ∧ t.job sl = { s.job sl with entries := (t.job sl).entries } ∧
      (t.job sl).entryOf p = some st' ∧ ∀ q, q ≠ p → (t.job sl).entryOf q = (s.job sl).entryOf q := by
  intro t
  have hj : t.job sl = (s.job sl).mark p g := by simp [t]
  rw [hj]
  exact ⟨rfl, rfl, by rw [Job.entryOf_mark, he, Option.map_some, hg], fun q hq => Job.entryOf_mark_other _ hq g⟩

/-- What a view in a new state leaves alone: all but the views, the envelopes and the jobs. -/
theorem State.viewTo_rest (s : State) (p : Nat) (st : ViewState) :
    let t := (s.viewTo p st).1
    t.station = s.station ∧ t.role = s.role ∧ t.pmon = s.pmon ∧ t.adu = s.adu ∧ t.bus = s.bus ∧ t.clu.due = s.clu.due := by
  obtain ⟨vs, es, js, h⟩ := State.viewTo_eq s p st
  simp only [h, and_self]

/-- A frame handed over from a state with the same frames due and the same bus interface. -/
theorem State.Hands.of_same {u : State} {p : Nat} {k : PassageKind} {f : Frame} (h : u.Hands t p k f) (hd : u.clu.due = s.clu.due)
    (hb : u.bus = s.bus) : s.Hands t p k f := by
  have hw : u.clu.waiting = s.clu.waiting := congrArg (List.filterMap Due.frame) hd
  rw [State.Hands, hw, hd, hb] at h
  exact h

/-- A peer pair's view in PENDING gives no axis the passage, so that no entry changes with it (R49). -/
theorem State.viewTo_pending_mvc {p : Nat} {v : View} (hv : s.view? p = some v) (hp : v.peerRole.isSome = true) (hst : v.state = .opened) :
    (s.viewTo p .pending).1.mvc = s.mvc := by
  obtain ⟨_, _, _, h4, h5⟩ := View.goTo_frame v .pending
  have hgives : ∀ sl, (v.goTo .pending).gives sl = false := fun sl => by
    rw [View.gives_peer (by simpa [View.peerRole, h4] using hp), h5]; rfl
  obtain ⟨es, hm⟩ := State.moveView_eq s v .pending
  simp only [State.viewTo, hv, hst, reduceCtorEq, if_false, State.grantEntries, hgives, Bool.false_and, Bool.false_eq_true]
  rw [List.foldl_fixed, hm]
  rfl

/-- The claim of an entry on an OPEN pair (R48). -/
theorem State.claimOpen_claims {sl : Slot} {p : Nat} {v : View} {own : Role} (he : (s.job sl).entryOf p = some .needed)
    (hv : s.view? p = some v) (hp : v.peerRole.isSome = true) (hst : v.state = .opened) (hrole : s.role = some own) :
    let t := (s.claimOpen sl p).1
    (t.job sl).entryOf p = some .claimed ∧
      (∃ w, t.view? p = some w ∧ w.state = .pending ∧ w.inFlight = some .claim ∧ w.slot = v.slot ∧ w.other = v.other) ∧
      s.Hands t p .claim (passageFrame kClaim own p (standingCode (s.job sl).standing)) ∧
      (∀ q, q ≠ p → t.view? q = s.view? q) ∧ t.adu = s.adu ∧ t.pmon = s.pmon ∧ t.bus.rx = s.bus.rx := by
  let s1 := s.setJob sl ((s.job sl).mark p (fun _ => .claimed))
  let u := (s1.viewTo p .pending).1
  have hv1 : s1.view? p = some v := hv
  have hne : v.state ≠ .pending := by simp [hst]
  obtain ⟨-, hro, hpm, had, hbus, hdue⟩ := State.viewTo_rest s1 p .pending
  have hmvc : u.mvc = s1.mvc := State.viewTo_pending_mvc hv1 hp hst
  have hsend : u.sender = roleCode own := State.sender_of_role (hro.trans hrole)
  obtain ⟨_, h2, _, h4, h5⟩ := View.goTo_frame v .pending
  have hview : ∀ q, (u.handClaim p (s.job sl).standing).view? q =
      (s.view? q).map (fun w => if w.pair = p then { w.goTo .pending with inFlight := some .claim } else w) := fun q => by
    rw [State.handClaim, State.view?_handPassage, State.view?_viewTo hv1 hne, Option.map_map]
    congr 1
    funext w
    by_cases hw : w.pair = p <;> simp [hw, (View.goTo_frame w .pending).1]
  have hands := State.handPassage_hands u p .claim (.claim p (some (s.job sl).standing))
  obtain ⟨-, -, -, hpmon, hadu, hmvc', -⟩ := State.handPassage_sends u p .claim (.claim p (some (s.job sl).standing))
  have hrx : (u.handClaim p (s.job sl).standing).bus.rx = u.bus.rx :=
    (State.handPassage_evolves (loose := True) u p .claim _).around.rx
  refine ⟨?_, ⟨{ v.goTo .pending with inFlight := some .claim }, ?_, h5, rfl, h2, h4⟩, ?_, fun q hq => ?_, hadu.trans had,
    hpmon.trans hpm, hrx.trans (congrArg Bif.rx hbus)⟩
  · have hj : (u.handClaim p (s.job sl).standing).job sl = s1.job sl := 
      congrArg (fun m => m.jobs.get sl) (hmvc'.trans hmvc)
    have : ((s.claimOpen sl p).1.job sl).entryOf p = (s1.job sl).entryOf p := congrArg (fun j => Job.entryOf j p) hj
    rw [this]
    exact (State.setJob_mark he _ rfl).2.2.1
  · exact (hview p).trans (by rw [hv, Option.map_some, if_pos (State.view?_some_pair hv)])
  · rw [passageFrame_claim, ← hsend]
    exact hands.of_same hdue hbus
  · refine (hview q).trans ?_
    cases hq' : s.view? q with
    | none => rfl
    | some w => rw [Option.map_some, if_neg (by rw [State.view?_some_pair hq']; exact hq)]

/-- Settles O16: the rows of R48, one view state after the other. -/
theorem openPairIsClaimed : Obligations.OpenPairIsClaimed := by
  constructor
  · intro s sl p v r hrole ha he hv hp hst hf hc hu hrun hb t f
    have hdec : s.decideEntry sl p = s.claimOpen sl p := by
      rw [State.decideEntry_peer ha he hv hp, View.claimWaits_false hf hc, hst, hu, State.mayHand_of hf hrun hb]
      rfl
    have hclaim := State.claimOpen_claims he hv hp hst hrole
    rw [← hdec] at hclaim
    exact hclaim
  · intro s sl p v r hrole ha he hv hp e entered
    have hdec : e = _ := State.decideEntry_peer ha he hv hp
    refine ⟨fun hf => ?_, fun hf hc => ?_⟩
    · rw [hdec, if_pos (by simp [View.claimWaits, hf])]
    · rw [View.claimWaits_false hf hc, if_neg Bool.false_ne_true] at hdec
      refine ⟨fun hst => ?_, fun hst => ?_, fun hst => ?_, fun hst hu hrun hb => ?_⟩
      · have he' : e = (s.setJob sl ((s.job sl).mark p grantStatus), [.learnCheck sl]) := by
          rcases hst with hst | hst <;> rw [hdec, hst]
        rw [he']
        exact ⟨State.setJob_mark he _ rfl, rfl⟩
      · rw [hdec, hst]
        exact ⟨State.setJob_mark he _ rfl, rfl⟩
      · rw [hdec, hst]
      · rw [hst, hu, State.mayHand_of hf hrun hb] at hdec
        refine ⟨_, State.setJob_mark he (fun _ => .claimed) rfl, by rw [hdec]; rfl, ?_⟩
        have hsend : (s.setJob sl ((s.job sl).mark p (fun _ => .claimed))).sender = roleCode r := State.sender_of_role hrole
        rw [hdec, passageFrame_claim, ← hsend]
        exact State.handPassage_sends _ p .claim (.claim p (some (s.job sl).standing))

/-! ### An entry that fails (R50) -/

/-- The failure of an entry runs from it on (R50). -/
theorem failFrom_append {p : Nat} {a : List Entry} (h : ∀ e ∈ a, e.pair ≠ p) (f : Failure) (st : EntryStatus) (c : List Entry) :
    failFrom p f (a ++ ⟨p, st⟩ :: c) =
      a ++ ⟨p, .failed f⟩ ::
        c.map (fun e => if e.status = .needed ∨ e.status = .claimed then { e with status := .failed f } else e) := by
  induction a with
  | nil => simp [failFrom]
  | cons x xs ih =>
    rw [List.forall_mem_cons] at h
    simp only [List.cons_append, failFrom, if_neg h.1, ih h.2]

theorem Job.entryOf_append {j : Job} {p : Nat} {a c : List Entry} {st : EntryStatus} (hj : j.entries = a ++ ⟨p, st⟩ :: c)
    (h : ∀ e ∈ a, e.pair ≠ p) : j.entryOf p = some st := by
  have hnone : a.find? (fun e => e.pair == p) = none := List.find?_eq_none.mpr (fun e he => by simpa using h e he)
  simp [Job.entryOf, hj, List.find?_append, hnone]

/-- A job whose entry of a pair has failed, with its target cut at the pair's band (R50). -/
def Job.failedAt (j : Job) (p : Nat) (f : Failure) (b : Band) (span : Int) : Job :=
  { j with
    entries := failFrom p f j.entries, firstFailure := some (j.firstFailure.getD f)
    target := j.target.map (fun x => cutTarget j.dir x b span) }

/-- What the failure of an open entry does (R50), of a job that is no learn. -/
theorem State.failEntry_open {sl : Slot} {p : Nat} {f : Failure} {v : View} {b : Band} {st : EntryStatus}
    (ha : (s.job sl).active = true) (ho : (s.job sl).origin ≠ .learn) (he : (s.job sl).entryOf p = some st)
    (hc : st.canFail f = true) (hv : s.view? p = some v) (hb : v.bandFor sl = some b) :
    s.failEntry sl p f =
      ((s.setJob sl ((s.job sl).failedAt p f b (s.drive sl).span)).setDrive sl ((s.drive sl).cutBack b),
        s.withdrawals sl (openAfter p (s.job sl).entries)) := by
  simp only [State.failEntry, ha, he, Option.any_some, hc, and_self, if_true, ho, if_false, hv, Option.bind_some, hb,
    Job.failedAt]

/-- Settles O17: the failure writes the job and the drive of the slot alone. -/
theorem failedClaimCutsTarget : Obligations.FailedClaimCutsTarget := by
  intro s sl p f v b a c st x ha ho hj hfirst hst hv hb hx t
  have hcan : st.canFail f = true := by rcases hst with rfl | rfl <;> rfl
  have ht : t = _ := congrArg Prod.fst (State.failEntry_open ha ho (Job.entryOf_append hj hfirst) hcan hv hb)
  have hjob : t.job sl = (s.job sl).failedAt p f b (s.drive sl).span := by
    rw [ht, State.job_setDrive, State.job_setJob, if_pos rfl]
  rw [hjob]
  refine ⟨by rw [Job.failedAt, hj]; exact failFrom_append hfirst f st c, rfl, ?_, rfl, by rw [ht]; rfl, by rw [ht]; rfl, by rw [ht]; rfl, fun y hy => ?_⟩
  · simp only [Job.failedAt, hx, Option.map_some]
    cases (s.job sl).dir <;> rfl
  · rw [ht]
    simp [Ne.symm hy]

end Sys2Proof.Machine
end

section
/-! PROOFS. O37: the frame that takes a free general slot, and the CEDE due that is handed over in the place it fell due in. -/

namespace Sys2Proof.Machine

variable {s t : State}

/-! ### The frame of lowest identifier (R151, R152) -/

/-- The frame chosen from a list stands before it the frames of higher identifiers alone, and behind it none of a lower one. -/
theorem lowestFrame_split {fs : List Frame} (h : fs ≠ []) :
    ∃ f a b, lowestFrame fs = some f ∧ fs = a ++ f :: b ∧ (∀ g ∈ a, f.ident.toNat < g.ident.toNat) ∧
      ∀ g ∈ b, f.ident.toNat ≤ g.ident.toNat := by
  induction fs with
  | nil => exact absurd rfl h
  | cons x xs ih =>
    by_cases hxs : xs = []
    · subst hxs
      exact ⟨x, [], [], rfl, rfl, by simp, by simp⟩
    · obtain ⟨f, a, b, hf, rfl, hbefore, hbehind⟩ := ih hxs
      by_cases hlt : f.ident.toNat < x.ident.toNat
      · exact ⟨f, x :: a, b, by simp [lowestFrame, hf, hlt], rfl, by simpa [hlt] using hbefore, hbehind⟩
      · refine ⟨x, [], a ++ f :: b, by simp [lowestFrame, hf, hlt], rfl, by simp, fun g hg => ?_⟩
        have hfx : x.ident.toNat ≤ f.ident.toNat := not_lt.mp hlt
        rcases List.mem_append.mp hg with hg | hg
        · exact hfx.trans (hbefore g hg).le
        · rcases List.mem_cons.mp hg with rfl | hg
          · exact hfx
          · exact hfx.trans (hbehind g hg)

/-- A free general slot given to the frame chosen (R152). -/
theorem State.assignSlot_eq {f : Frame} (hopen : s.busOpen = true) (hroom : s.bus.general.length < 5)
    (hf : lowestFrame (s.clu.waiting ++ s.mvc.outgoing.take 1) = some f) :
    s.assignSlot =
      if f ∈ s.clu.waiting then (s.setBus { s.bus with general := s.bus.general ++ [f] }).leaveWaiting f
      else { s.setBus { s.bus with general := s.bus.general ++ [f] } with mvc := { s.mvc with outgoing := s.mvc.outgoing.drop 1 } } := by
  have hroom' : s.bus.hasRoom = true := decide_eq_true hroom
  simp only [State.assignSlot, hopen, hroom', Bool.and_self, if_true, hf, List.contains_iff_mem]

/-- A frame handed over stands in a general slot, or waits for one. -/
theorem State.mem_handPassage (s : State) (p : Nat) (k : PassageKind) (pl : Payload) :
    encode s.sender pl ∈ (s.handPassage p k pl).bus.general ++ (s.handPassage p k pl).clu.waiting := by
  rw [List.mem_append]
  have h := s.handPassage_hands p k pl
  unfold State.Hands at h
  split at h
  · exact .inl (by rw [h.1]; simp)
  · refine .inr (List.mem_filterMap.mpr ⟨⟨p, k, some (encode s.sender pl)⟩, ?_, rfl⟩)
    obtain ⟨-, hrecorded, hbehind⟩ := h
    by_cases hm : ⟨p, k, none⟩ ∈ s.clu.due
    · rw [hrecorded hm]
      exact List.mem_map.mpr ⟨_, hm, if_pos rfl⟩
    · rw [hbehind hm]
      simp

/-! ### A CEDE due (R38) -/

section
variable {p : Nat} {v : View} (hv : s.view? p = some v) (hrun : s.station = .run) (hbus : s.bus.busOff = none)
  (hflight : v.inFlight = none) (hdue : v.cedeDue = true)
include hv hrun hbus hflight hdue

/-- A CEDE due of a pair with nothing in flight is handed over, and is due no longer. -/
theorem State.serveDue_cede :
    s.serveDue p = (s.updView p (fun w => { w with cedeDue := false, waitTimer := none })).handPassage p .cede (.cede p) := by
  simp only [State.serveDue, hv, State.mayHand_of hflight hrun hbus, Bool.true_eq_false, if_false, hdue, if_true]
  rfl

/-- The same as the statements have it. -/
theorem State.serveDue_cede_sends {own : Role} (hrole : s.role = some own) :
    (s.updView p (fun w => { w with cedeDue := false, waitTimer := none })).Sends (s.serveDue p) p .cede (passageFrame kCede own p 0) := by
  have hsend : (s.updView p (fun w => { w with cedeDue := false, waitTimer := none })).sender = roleCode own := State.sender_of_role hrole
  rw [State.serveDue_cede hv hrun hbus hflight hdue, passageFrame_cede, ← hsend]
  exact State.handPassage_sends _ p .cede (.cede p)

theorem State.serve_cede : s.serve p = (s.serveDue p, []) := by
  simp only [State.serve, hv, State.mayHand_of hflight hrun hbus, Bool.true_eq_false, if_false, hdue, if_true]

/-- The record of the pair, once its CEDE due has been handed over. -/
theorem State.view?_serveDue_cede :
    (s.serveDue p).view? p = some { v with cedeDue := false, waitTimer := none, inFlight := some .cede } := by
  rw [State.serveDue_cede hv hrun hbus hflight hdue, State.view?_handPassage,
    State.view?_updView_self (f := fun w => { w with cedeDue := false, waitTimer := none }) hv (fun _ => rfl), Option.map_some,
    if_pos (State.view?_some_pair hv)]

theorem State.mem_serveDue_cede {own : Role} (hrole : s.role = some own) :
    passageFrame kCede own p 0 ∈ (s.serveDue p).bus.general ++ (s.serveDue p).clu.waiting := by
  have hsend : (s.updView p (fun w => { w with cedeDue := false, waitTimer := none })).sender = roleCode own := State.sender_of_role hrole
  rw [State.serveDue_cede hv hrun hbus hflight hdue, passageFrame_cede, ← hsend]
  exact State.mem_handPassage _ p .cede (.cede p)

theorem State.serveDue_cede_adu : (s.serveDue p).adu = s.adu := by
  rw [State.serveDue_cede hv hrun hbus hflight hdue, (State.handPassage_rest _ _ _ _).2.1]
  rfl

end

/-! ### The echo of a CLAIM with a CEDE due behind it (R38, R39) -/

/-- The record of a pair after the effect of the own CLAIM's echo (R39). -/
theorem State.view?_ownClaim {v : View} (hv : s.view? v.pair = some v) :
    ∃ w, (s.ownClaim v).1.view? v.pair = some w ∧ w.inFlight = v.inFlight ∧ w.cedeDue = v.cedeDue ∧
      w.state =
        (match v.state with
         | .opened | .pending => .own
         | .peer => .queued
         | x => x) := by
  have hto : ∀ st, v.state ≠ st → (s.viewTo v.pair st).1.view? v.pair = some (v.goTo st) := fun st => State.view?_viewTo_self hv
  have hgo : ∀ st, (v.goTo st).inFlight = v.inFlight := fun st => by unfold View.goTo; split <;> rfl
  unfold State.ownClaim
  cases hst : v.state with
  | opened | pending => exact ⟨_, hto .own (by simp [hst]), hgo _, v.goTo_cedeDue _, (v.goTo_frame _).2.2.2.2⟩
  | peer => exact ⟨_, hto .queued (by simp [hst]), hgo _, v.goTo_cedeDue _, (v.goTo_frame _).2.2.2.2⟩
  | own | ownWait | queued | barred | conflict | heldA | heldB => exact ⟨v, hv, rfl, rfl, hst⟩

theorem State.ownClaim_rest (s : State) (v : View) :
    let t := (s.ownClaim v).1
    t.station = s.station ∧ t.role = s.role ∧ t.pmon = s.pmon ∧ t.adu = s.adu ∧ t.bus = s.bus ∧ t.clu.due = s.clu.due := by
  unfold State.ownClaim
  cases v.state with
  | opened | pending | peer => exact s.viewTo_rest _ _
  | own | ownWait | queued | barred | conflict | heldA | heldB => exact ⟨rfl, rfl, rfl, rfl, rfl, rfl⟩

/-- Settles O37: the slot's frame is the one chosen, and a CEDE due is what `State.serveDue` hands over, at the echo as well. -/
theorem freeSlotAssigned : Obligations.FreeSlotAssigned := by
  refine ⟨fun s hst hbus hroom hne => ?_, fun s p v own hv hrole hrun hbus hf hd => ?_,
    fun s p q f v own hv hrole hrun hbus hf hd hdue => ?_, fun s f rest v own h hv hp hrole hrun hbus hf hd => ?_⟩
  · obtain ⟨f, a, b, hf, hsplit, hbefore, hbehind⟩ := lowestFrame_split hne
    have hopen : s.busOpen = true := by rcases hst with h | h <;> simp [State.busOpen, h, hbus]
    have hslot : exec .generalSlotAssignment s = .next _ := congrArg Host.Outcome.next (State.assignSlot_eq hopen hroom hf)
    refine ⟨f, a, b, hsplit, hbefore, hbehind, fun hm => ?_, fun hm => ?_⟩
    · rw [hslot, if_pos hm]
      rfl
    · rw [hslot, if_neg hm]
      rfl
  · rw [State.serve_cede hv hrun hbus hf hd]
    exact ⟨rfl, State.serveDue_cede_sends hv hrun hbus hf hd hrole⟩
  · have hwait : s.clu.waiting = [f] := by simp [Clu.waiting, hdue]
    obtain ⟨hhands, -⟩ := State.serveDue_cede_sends hv hrun hbus hf hd hrole
    rw [State.Hands, if_neg (by simp [show (s.updView p _).clu.waiting = s.clu.waiting from rfl, hwait])] at hhands
    obtain ⟨-, hrecorded, -⟩ := hhands
    have hmap := hrecorded (by rw [show (s.updView p _).clu.due = s.clu.due from rfl, hdue]; simp)
    rw [State.serve_cede hv hrun hbus hf hd, Clu.waiting, hmap, show (s.updView p _).clu.due = s.clu.due from rfl, hdue]
    simp
  · have hpair := State.view?_some_pair hv
    obtain ⟨l1, _, _, _, l5, l6⟩ := v.landed_frame .claim
    let u := (s.frameTaken s.vsense).updView v.pair (View.landed .claim)
    have hu : u.view? (v.landed .claim).pair = some (v.landed .claim) := by
      rw [l1]
      exact State.view?_updView_self (by rw [State.frameTaken_view?, hpair]; exact hv) (fun w => (w.landed_frame .claim).1)
    have hecho : s.takeEcho kClaim .claim State.ownClaim = (u.ownClaim (v.landed .claim)).thenServe v.pair :=
      h.takeEcho hv hp s.vsense .claim State.ownClaim
    obtain ⟨w, hw, hwf, hwd, hws⟩ := State.view?_ownClaim hu
    obtain ⟨hst, hro, -, had, hbu, -⟩ := State.ownClaim_rest u (v.landed .claim)
    have hwf' : w.inFlight = none := by rw [hwf, View.landed, if_pos hf]
    have hbusu : u.bus.busOff = none := by simpa [u, State.frameTaken, State.popRx] using hbus
    have hrunu : u.station = .run := (s.frameTaken_station s.vsense).trans hrun
    have hroleu : u.role = some own := (s.frameTaken_role s.vsense).trans hrole
    rw [l1] at hw
    have hdue : w.cedeDue = true := hwd.trans (l6.trans hd)
    have hrunt := hst.trans hrunu
    have hbust := (congrArg Bif.busOff hbu).trans hbusu
    rw [hecho]
    exact ⟨⟨_, State.view?_serveDue_cede hw hrunt hbust hwf' hdue, rfl, rfl, rfl, by rw [← l5]; exact hws⟩,
      State.mem_serveDue_cede hw hrunt hbust hwf' hdue (hro.trans hroleu),
      (State.serveDue_cede_adu hw hrunt hbust hwf' hdue).trans (had.trans (s.frameTaken_adu s.vsense))⟩

end Sys2Proof.Machine
end

section
/-! PROOFS. O22: the misses-me count of a STATUS, and what UNHEARD does to claims and to STAKEs due. -/

namespace Sys2Proof.Machine

variable {s t : State}

/-! ### The misses-me count (R74) -/

theorem State.peer?_updPeer (s : State) (r : Role) (f : PeerRec → PeerRec) (hf : ∀ p, (f p).role = p.role) (x : Role) :
    (s.updPeer r f).peer? x = (s.peer? x).map (fun p => if p.role = r then f p else p) := by
  simp only [State.peer?, State.updPeer, List.find?_map]
  congr 2
  funext u
  simp only [Function.comp_apply]
  split <;> simp [hf]

theorem State.peer?_role {r : Role} {p : PeerRec} (h : s.peer? r = some p) : p.role = r := by simpa using List.find?_some h

/-- A role's own record after an update of it. -/
theorem State.peer?_updPeer_self {r : Role} {p : PeerRec} {f : PeerRec → PeerRec} (h : s.peer? r = some p)
    (hf : ∀ q, (f q).role = q.role) : (s.updPeer r f).peer? r = some (f p) := by
  rw [State.peer?_updPeer s r f hf, h, Option.map_some, if_pos (State.peer?_role h)]

/-- The count of one STATUS (R74), by whether it agrees with the flag. -/
theorem PeerRec.countMissesMe_eq (p : PeerRec) (listed : Bool) :
    p.countMissesMe listed =
      if listed = p.missesMe then { p with missesMeCount := 0 }
      else if p.missesMeCount = 0 then { p with missesMeCount := 1 }
      else { p with missesMe := listed, missesMeCount := 0 } := by
  unfold PeerRec.countMissesMe
  by_cases h : listed = p.missesMe
  · simp only [if_pos h]
  · by_cases hc : p.missesMeCount = 0
    · simp [h, hc]
    · simp [h, hc, show p.missesMeCount + 1 ≥ 2 by omega]

theorem PeerRec.countMissesMe_heardAs (p : PeerRec) (listed : Bool) :
    p.heardAs (p.countMissesMe listed) ∧ (p.countMissesMe listed).forced = p.forced := by
  rw [PeerRec.countMissesMe_eq]
  split
  · exact ⟨⟨rfl, rfl, rfl, rfl, rfl, rfl, rfl, rfl, rfl, rfl⟩, rfl⟩
  · split <;> exact ⟨⟨rfl, rfl, rfl, rfl, rfl, rfl, rfl, rfl, rfl, rfl⟩, rfl⟩

theorem mem_unheardReports (was now : Bool) :
    (Report.unheardEntered ∈ unheardReports was now ↔ was = false ∧ now = true) ∧
      (Report.unheardCleared ∈ unheardReports was now ↔ was = true ∧ now = false) := by
  cases was <;> cases now <;> simp [unheardReports]

/-- The tests of a STATUS on a PRESENT record (R65 step 4). -/
theorem State.peerTests_present {r own : Role} {p : PeerRec} (hrole : s.role = some own) (hp : s.peer? r = some p)
    (hpres : p.state = .present) :
    let u := s.updPeer r (fun q => q.countMissesMe (inScope p.missSet own))
    s.peerTests r = (u, unheardReports s.unheard u.unheard ++ (u.pairsWith r).map .pairTests ++ [.clearForced r]) := by
  simp only [State.peerTests, hp, hrole, hpres, if_true]

/-! ### Claims of an UNHEARD station (R75) -/

theorem State.view_eq_of_nodup {p : Nat} {v w : View} (hn : (s.clu.views.map (·.pair)).Nodup) (hv : s.view? p = some v) (hw : w ∈ s.clu.views)
    (hp : w.pair = p) : w = v :=
  List.inj_on_of_nodup_map hn hw (List.mem_of_find?_eq_some hv) (hp.trans (State.view?_some_pair hv).symm)

theorem State.entryAmong_eq_some {v : View} {sts : List EntryStatus} {st : EntryStatus} :
    s.entryAmong v sts = some st ↔ (s.job v.slot).active = true ∧ (s.job v.slot).entryOf v.pair = some st ∧ st ∈ sts := by
  unfold State.entryAmong
  cases (s.job v.slot).active <;> simp [Option.filter_eq_some_iff]

/-- The failure that the loss of a claim reports (R71, R75). -/
theorem mem_claimFails {v : View} {f : Failure} {st : EntryStatus} {sl : Slot} {p : Nat} :
    Report.failEntry sl p f ∈ claimFails v f st ↔ sl = v.slot ∧ p = v.pair := by
  simp [claimFails]

/-- The claims among some that fail with their peer or hearing. -/
theorem State.mem_entryAmong_fails {v : View} {sts : List EntryStatus} {f : Failure} {sl : Slot} {p : Nat} :
    Report.failEntry sl p f ∈ (s.entryAmong v sts).toList.flatMap (claimFails v f) ↔
      sl = v.slot ∧ p = v.pair ∧ (s.job v.slot).active = true ∧ ∃ st ∈ sts, (s.job v.slot).entryOf v.pair = some st := by
  simp only [List.mem_flatMap, Option.mem_toList, State.entryAmong_eq_some, mem_claimFails]
  constructor
  · rintro ⟨st, ⟨ha, he, hm⟩, hsl, hp⟩
    exact ⟨hsl, hp, ha, st, hm, he⟩
  · rintro ⟨hsl, hp, ha, st, hm, he⟩
    exact ⟨st, ⟨ha, he, hm⟩, hsl, hp⟩

/-- The claims that fail as the station becomes UNHEARD. -/
theorem State.mem_unheardEntered {p : Nat} {v : View} {sl : Slot} (hn : (s.clu.views.map (·.pair)).Nodup) (hv : s.view? p = some v) :
    Report.failEntry sl p .unheard ∈ s.unheardEntered.2 ↔
      sl = v.slot ∧ v.peerRole.isSome = true ∧ (s.job sl).active = true ∧
        ((s.job sl).entryOf p = some .claimed ∨ (s.job sl).entryOf p = some .needed ∧ v.inFlight.isSome = true) := by
  have hpair := State.view?_some_pair hv
  have hone : ∀ w, (Report.failEntry sl p .unheard ∈
        if w.peerRole.isNone = true then []
        else (s.entryAmong w (if w.inFlight.isSome = true then [.claimed, .needed] else [.claimed])).toList.flatMap
          (claimFails w .unheard)) ↔
      w.peerRole.isSome = true ∧ sl = w.slot ∧ p = w.pair ∧ (s.job w.slot).active = true ∧
        ∃ st ∈ (if w.inFlight.isSome = true then [EntryStatus.claimed, .needed] else [.claimed]),
          (s.job w.slot).entryOf w.pair = some st := fun w => by
    cases hr : w.peerRole with
    | none => simp
    | some r => simp only [Option.isNone_some, Bool.false_eq_true, if_false, State.mem_entryAmong_fails, Option.isSome_some, true_and]
  have hst : (∃ st ∈ (if v.inFlight.isSome = true then [EntryStatus.claimed, .needed] else [.claimed]),
        (s.job v.slot).entryOf p = some st) ↔
      (s.job v.slot).entryOf p = some .claimed ∨ (s.job v.slot).entryOf p = some .needed ∧ v.inFlight.isSome = true := by
    cases v.inFlight <;> simp
  simp only [State.unheardEntered, List.mem_flatMap, hone]
  constructor
  · rintro ⟨w, hw, hpr, rfl, hp, ha, he⟩
    obtain rfl := State.view_eq_of_nodup hn hv hw hp.symm
    rw [hpair, hst] at he
    exact ⟨rfl, hpr, ha, he⟩
  · rintro ⟨rfl, hpr, ha, he⟩
    exact ⟨v, List.mem_of_find?_eq_some hv, hpr, rfl, hpair.symm, ha, by rw [hpair, hst]; exact he⟩

/-! ### STAKEs due, when the station is not UNHEARD any longer (R76) -/

theorem passageFrame_stake (own : Role) (p : Nat) : passageFrame kStake own p 0 = encode (roleCode own) (.stake p) := by
  simp [passageFrame, encode, identOf, Nat.mul_comm]

theorem State.mayHand_iff {v : View} (hrun : s.station = .run) : s.mayHand v = true ↔ v.inFlight = none ∧ s.bus.busOff = none := by
  simp [State.mayHand, hrun]

theorem State.serveDueStake_sends {p : Nat} {own : Role} (hrole : s.role = some own) :
    (s.updView p (fun w => { w with stakeDue := false })).Sends (s.serveDueStake p) p .stake (passageFrame kStake own p 0) := by
  have hsend : (s.updView p (fun w => { w with stakeDue := false })).sender = roleCode own := State.sender_of_role hrole
  rw [passageFrame_stake, ← hsend]
  exact State.handPassage_sends _ p .stake (.stake p)

/-- A STAKE due, once it can be served: sent, kept, or cleared. -/
theorem State.serveStake_due {p : Nat} {v : View} (hv : s.view? p = some v) (hd : v.stakeDue = true) :
    s.serveStake p =
      if v.state = .opened ∧ s.ownInside v = true then (if s.mayHand v = true then s.serveDueStake p else s, [])
      else (s.clearStake p, []) := by
  simp only [State.serveStake, hv, hd, if_true]

/-- Settles O22: one count of a STATUS, one list of claims, and one answer of the CLU for each STAKE due. -/
theorem missesMeTurnsAtTwo : Obligations.MissesMeTurnsAtTwo := by
  refine ⟨fun s r own p hrole hp hpres => ?_, fun s p v sl hn hv => ⟨rfl, State.mem_unheardEntered hn hv⟩,
    fun s p v sl hv hp hun hst hf hc ha he => ?_, fun s p v own hv hrole hrun => ?_⟩
  · have hrole' : ∀ q : PeerRec, (q.countMissesMe (inScope p.missSet own)).role = q.role := fun q =>
      (q.countMissesMe_heardAs _).1.1
    rw [State.peerTests_present hrole hp hpres]
    obtain ⟨hin, hout⟩ := mem_unheardReports s.unheard (s.updPeer r (fun q => q.countMissesMe (inScope p.missSet own))).unheard
    refine ⟨by simpa using hin, by simpa using hout, _, State.peer?_updPeer_self hp hrole', (p.countMissesMe_heardAs _).1,
      (p.countMissesMe_heardAs _).2, ?_⟩
    have hlisted : inScope p.missSet own = p.missSet.getLsbD (roleCode own) := rfl
    rw [hlisted, PeerRec.countMissesMe_eq]
    refine ⟨fun h => ?_, fun h hc => ?_, fun h hc => ?_⟩
    · rw [if_pos h]
      exact ⟨rfl, rfl⟩
    · rw [if_neg h, if_pos hc]
      exact ⟨rfl, rfl⟩
    · rw [if_neg h, if_neg (by simp [hc])]
      exact ⟨rfl, rfl⟩
  · rw [State.decideEntry_peer ha he hv hp, View.claimWaits_false hf hc, hun]
    rcases hst with hst | hst | hst <;> (rw [hst]; rfl)
  · refine ⟨fun hd => ?_, fun hd => ⟨fun hno => ?_, fun hst hin => ⟨fun hf hb => ?_, fun hno => ?_⟩⟩⟩
    · simp only [State.serveStake, hv, hd, Bool.false_eq_true, if_false]
    · rw [State.serveStake_due hv hd, if_neg (fun h => hno.elim (· h.1) (fun hi => by simp [hi] at h))]
      rfl
    · rw [State.serveStake_due hv hd, if_pos ⟨hst, hin⟩, if_pos (State.mayHand_of hf hrun hb)]
      exact ⟨rfl, State.serveDueStake_sends hrole⟩
    · rw [State.serveStake_due hv hd, if_pos ⟨hst, hin⟩, if_neg]
      rw [State.mayHand_iff hrun]
      rintro ⟨hf, hb⟩
      simp [hf, hb] at hno

end Sys2Proof.Machine
end

section
/-! PROOFS. O28: a STOP, the end requests by the state of the axis, the outcome a run settles to, and what the end of a job leaves. -/

namespace Sys2Proof.Machine

variable {s t : State} {sl : Slot}

/-! ### End requests (R92, R108, R113) -/

/-- An end request that finds no job, or one that has its cause, does nothing. -/
theorem State.endRequest_none {o : JobOutcome} (h : (s.job sl).active = false ∨ (s.job sl).cause.isSome = true) :
    s.endRequest sl o = (s, []) := by
  rw [State.endRequest, if_neg]
  rintro ⟨ha, hc⟩
  simp [ha, hc] at h

/-- The clauses of O28 on the end request of a job with no cause. -/
theorem State.endRequest_clauses {o : JobOutcome} (hw : s.rcs.writing.get sl = none) (ha : (s.job sl).active = true)
    (hc : (s.job sl).cause = none) :
    let marked := s.setJob sl { s.job sl with cause := some o }
    ((s.drive sl).handed.isSome = true →
      s.endRequest sl o = (marked.setDrive sl { s.drive sl with handed := none }, [.finishJob sl o])) ∧
    ((s.drive sl).handed = none → (s.job sl).handed = false → s.endRequest sl o = (marked, [.finishJob sl o])) ∧
    ((s.drive sl).handed = none → (s.job sl).handed = true →
      ((s.drive sl).axis = .holding →
        (s.endRequest sl o).2 = [.finishJob sl o] ∧ (s.endRequest sl o).1.drive sl = (s.drive sl).atRest .idle ∧
          (s.endRequest sl o).1.mvc = marked.mvc) ∧
      ((s.drive sl).axis = .braking → (s.drive sl).waitingRun.isSome = true →
        s.endRequest sl o = (marked.setDrive sl { s.drive sl with waitingRun := none }, [.finishJob sl o])) ∧
      ((s.drive sl).axis = .braking → (s.drive sl).waitingRun = none → (s.drive sl).afterBrake = .joined →
        s.endRequest sl o = (marked.setDrive sl { s.drive sl with run := none, afterBrake := .idle }, [.finishJob sl o])) ∧
      ((s.drive sl).axis = .braking → (s.drive sl).waitingRun = none → (s.drive sl).afterBrake ≠ .joined →
        (∀ x, (s.drive sl).afterBrake ≠ .ended x) →
        s.endRequest sl o = (marked.setDrive sl { s.drive sl with afterBrake := .ended o }, []))) := by
  intro marked
  have hwriting : s.writingAt sl = false := by simp [State.writingAt, hw]
  refine ⟨fun hh => ?_, fun hn hj => ?_, fun hn hj => ⟨fun hax => ?_, fun hax hr => ?_, fun hax hr hb => ?_, fun hax hr hb he => ?_⟩⟩
  · simp [State.endRequest, ha, hc, hwriting, hh, marked]
  · simp [State.endRequest, ha, hc, hwriting, hn, hj, marked]
  · have hend : s.endRequest sl o = (marked.rest sl .idle none, [.finishJob sl o]) := by
      simp [State.endRequest, ha, hc, hwriting, hn, hj, hax, marked]
    have hrest : marked.rest sl .idle none = (marked.setDrive sl ((s.drive sl).atRest .idle)).setDriveSet sl false :=
      State.rest_eq .idle none (show (s.drive sl).axis ≠ .idle by simp [hax])
    rw [hend, hrest]
    exact ⟨rfl, (State.drive_setDrive marked sl sl _).trans (if_pos rfl), rfl⟩
  · simp [State.endRequest, ha, hc, hwriting, hn, hj, hax, hr, marked]
  · simp [State.endRequest, ha, hc, hwriting, hn, hj, hax, hr, hb, marked, Drive.unjoined]
  · cases hab : (s.drive sl).afterBrake with
    | joined => exact absurd hab hb
    | ended x => exact absurd hab (he x)
    | idle | retest | relief | refDone | secondLeg | rawCount n =>
      simp [State.endRequest, ha, hc, hwriting, hn, hj, hax, hr, hab, marked]

/-! ### The jobs that one cause ends (R113, R124) -/

/-- A slot's job drives with no cause yet, and its run has been handed and taken. -/
structure State.DrivesOn (s : State) (sl : Slot) : Prop where
  active : (s.job sl).active = true
  cause : (s.job sl).cause = none
  handed : (s.job sl).handed = true
  taken : (s.drive sl).handed = none
  writing : s.rcs.writing.get sl = none
  driving : (s.drive sl).axis = .driving

/-- A station in which the jobs of some slots have been given a cause while they drove, with nothing else changed (R92). -/
structure State.StopsAll (s t : State) (sls : List Slot) (o : JobOutcome) : Prop where
  clu : t.clu = s.clu
  rcs : t.rcs = s.rcs
  mvc : t.mvc = { s.mvc with jobs := t.mvc.jobs }
  job : ∀ sl, t.job sl = if sl ∈ sls then { s.job sl with cause := some o } else s.job sl
  drive : ∀ sl, t.drive sl = if sl ∈ sls then (s.drive sl).braked (.ended o) else s.drive sl

/-- An end request turns the drive of a job that drives off (R92). -/
theorem State.endRequest_driving (h : s.DrivesOn sl) (o : JobOutcome) :
    s.endRequest sl o =
      ((s.setJob sl { s.job sl with cause := some o }).setDrive sl ((s.drive sl).braked (.ended o)), []) := by
  have hwriting : s.writingAt sl = false := by simp [State.writingAt, h.writing]
  simp only [State.endRequest, h.active, h.cause, and_self, if_true, hwriting, h.taken, h.handed, h.driving, Option.isSome_none,
    Bool.false_eq_true, Bool.true_eq_false, if_false]
  rfl

/-- End requests for jobs that drive, each on its own slot. -/
theorem State.endRequests_driving {sls : List Slot} (hn : sls.Nodup) (o : JobOutcome) (h : ∀ sl ∈ sls, s.DrivesOn sl) :
    (s.endRequests sls o).2 = [] ∧ s.StopsAll (s.endRequests sls o).1 sls o := by
  induction sls generalizing s with
  | nil => exact ⟨rfl, rfl, rfl, rfl, fun _ => by simp [State.endRequests, overAll], fun _ => by simp [State.endRequests, overAll]⟩
  | cons x xs ih =>
    obtain ⟨hx, hxs⟩ := List.nodup_cons.mp hn
    obtain ⟨hdx, hdrive⟩ := List.forall_mem_cons.mp h
    let u := (s.setJob x { s.job x with cause := some o }).setDrive x ((s.drive x).braked (.ended o))
    have hu : s.endRequest x o = (u, []) := State.endRequest_driving hdx o
    have hstep : s.endRequests (x :: xs) o = u.endRequests xs o := by
      simp [State.endRequests, overAll, Effect.andThen, hu]
    have hother : ∀ sl ∈ xs, u.DrivesOn sl := fun sl hsl => by
      have hne : x ≠ sl := fun he => hx (he ▸ hsl)
      have hj : u.job sl = s.job sl := by simp [u, hne]
      have hd : u.drive sl = s.drive sl := by simp [u, hne]
      obtain ⟨h1, h2, h3, h4, h5, h6⟩ := hdrive sl hsl
      exact ⟨hj ▸ h1, hj ▸ h2, hj ▸ h3, hd ▸ h4, h5, hd ▸ h6⟩
    obtain ⟨hnil, hclu, hrcs, hmvc, hjob, hdr⟩ := ih hxs hother
    rw [hstep]
    refine ⟨hnil, hclu, hrcs, hmvc.trans rfl, fun sl => ?_, fun sl => ?_⟩
    · rw [hjob]
      by_cases hsl : x = sl
      · subst hsl
        simp [hx, u]
      · simp [u, hsl, Ne.symm hsl]
    · rw [hdr]
      by_cases hsl : x = sl
      · subst hsl
        simp [hx, u]
      · simp [u, hsl, Ne.symm hsl]

/-- A cause that ends every job finds none waiting (R124). -/
theorem State.endAll_none_waits (h : ∀ sl, s.queuedAt sl = none) (o : JobOutcome) :
    s.endAll o = (s, [.endRequests (allSlots.filter (fun sl => (s.job sl).active)) o]) := by
  have hq : PerSlot.tabulate (fun sl => (s.queuedAt sl).bind (fun q => q.endWith o)) = s.mvc.queued :=
    PerSlot.ext_get (fun sl => by rw [PerSlot.get_tabulate, h sl]; exact (h sl).symm)
  rw [State.endAll, hq]

theorem knownSender_of_ne {f : Frame} (h : f.sender ≠ 6) : knownSender f.sender = true := by
  have hlt : f.sender < 8 := Nat.mod_lt _ (by decide)
  interval_cases f.sender <;> first | rfl | contradiction

/-- A STOP from a sender of the bus whose scope names the role ends every job (R124). -/
theorem State.stopFrame_taken {f : Frame} {r : Role} {scope : BitVec 6} (hrun : s.station = .run) (hrole : s.role = some r)
    (hp : payload f = .stop scope) (hscope : scope.getLsbD (roleCode r) = true) (hsender : f.sender ≠ 6) :
    s.stopFrame f = s.endAll .stop := by
  simp only [State.stopFrame, hp, hrole, hrun, knownSender_of_ne hsender, inScope, hscope, and_self, if_true]

@[simp] theorem State.frameTaken_rcs (s : State) (n : Nat) : (s.frameTaken n).rcs = s.rcs := by simp [State.frameTaken, State.popRx]

/-- The step of a STOP that ends the jobs of a station, each of which drives (R92, R124). -/
theorem State.settle_stopsAll {u : State} (hq : ∀ sl, u.queuedAt sl = none)
    (h : ∀ sl, (u.job sl).active = true → u.DrivesOn sl) (o : JobOutcome) :
    ∃ t, u.StopsAll t (allSlots.filter (fun sl => (u.job sl).active)) o ∧ settle (u.endAll o) = t.takeActivity := by
  have hnodup : (allSlots.filter (fun sl => (u.job sl).active)).Nodup := List.Nodup.filter _ (by decide)
  obtain ⟨hnil, hstops⟩ := State.endRequests_driving hnodup o (fun sl hsl => h sl (by simpa using (List.mem_filter.mp hsl).2))
  refine ⟨_, hstops, ?_⟩
  rw [State.endAll_none_waits hq]
  have hhandle : ∀ sls, handle (.endRequests sls o) u = u.endRequests sls o := fun _ => rfl
  exact Takes.settle (k := 1) (Takes.answer rfl (by rw [hhandle, hnil]; exact .nil _)) (by decide)

/-! ### The end of a run (R114) -/

/-- The outcome that a run which ends by itself settles to (R114). -/
theorem State.settleOutcome_eq {k : Kind} {x : Int} {o : JobOutcome} (hk : s.kindAt sl = some k) (hx : (s.job sl).requested = some x) :
    s.settleOutcome sl o =
      if o = .done ∨ o = .blockedLimit then
        if |x - (s.drive sl).count| ≤ (params k).coast then .done
        else ((s.job sl).firstFailure.map Failure.outcome).getD .blockedLimit
      else o := by
  simp only [State.settleOutcome, hk, hx, dist_eq_abs]
  cases (s.job sl).firstFailure <;> rfl

theorem State.runEnded_outcome {o : JobOutcome} (ha : (s.job sl).active = true) :
    s.runEnded sl (.outcome o) = (s, [.finishJob sl ((s.job sl).cause.getD (s.settleOutcome sl o))]) := by
  simp only [State.runEnded, ha, if_true]
  cases (s.job sl).cause <;> rfl

/-! ### The end of a job (R54, R113) -/

/-- The station with no claim of a slot's job due, and its record free with the outcome and the pin set (R38, R54, R113). -/
def State.freed (s : State) (sl : Slot) (o : JobOutcome) : State :=
  ((s.dropClaims sl).setJob sl { Job.free with outcome := some o }).setPin sl
    (if (s.job sl).origin.isScene && o == .done then true else s.mvc.pins.get sl)

theorem State.finishJob_eq {o : JobOutcome} (ha : (s.job sl).active = true) :
    s.finishJob sl o =
      ((s.freed sl o).yieldOver sl (s.job sl).origin,
        s.withdrawals sl ((s.job sl).entries.filter (fun e => e.status == .needed || e.status == .claimed))
          ++ ((s.pairsOf sl).map (·.pair)).map .release ++ ((s.pairsOf sl).map (·.pair)).map .evalYield
          ++ [.sceneOutcome sl (s.job sl).member o, .startQueued sl]) := by
  simp only [State.finishJob, ha, if_true, State.freed]

/-- The claims of a slot's job that are due no longer, as the statement has them. -/
theorem State.dropClaims_eq (s : State) (sl : Slot) :
    s.dropClaims sl =
      { s with clu := { s.clu with
          due := s.clu.due.filter (fun x => ¬(x.kind = .claim ∧ x.frame = none ∧ ∃ v ∈ s.pairsOf sl, v.pair = x.pair)) } } := by
  have hsame : ∀ x : Due, (!(x.kind == .claim && x.frame.isNone && (s.pairsOf sl).any (fun v => v.pair == x.pair))) =
      decide (¬(x.kind = .claim ∧ x.frame = none ∧ ∃ v ∈ s.pairsOf sl, v.pair = x.pair)) := fun x => by
    rw [decide_not, Bool.not_inj_iff, Bool.eq_iff_iff]
    simp [and_assoc]
  simp only [State.dropClaims, State.setDue, hsame]

/-- The withdrawal of each entry of a list (R51). -/
theorem State.mem_withdrawals {es : List Entry} {e : Entry} {v : View} (he : e ∈ es) (hv : s.view? e.pair = some v) :
    Report.withdraw sl e.pair e.status v.state ∈ s.withdrawals sl es :=
  List.mem_filterMap.mpr ⟨e, he, by rw [hv]; rfl⟩

/-- The reports of the end of a job, as the statement has them. -/
theorem State.finishJob_reports {o : JobOutcome} (ha : (s.job sl).active = true) :
    (∀ e ∈ (s.job sl).entries, ∀ v, s.view? e.pair = some v → e.status = .needed ∨ e.status = .claimed →
      Report.withdraw sl e.pair e.status v.state ∈ (s.finishJob sl o).2) ∧
    (∀ v ∈ s.pairsOf sl, Report.release v.pair ∈ (s.finishJob sl o).2 ∧ Report.evalYield v.pair ∈ (s.finishJob sl o).2) ∧
    Report.sceneOutcome sl (s.job sl).member o ∈ (s.finishJob sl o).2 ∧ Report.startQueued sl ∈ (s.finishJob sl o).2 := by
  rw [State.finishJob_eq ha]
  refine ⟨fun e he v hv hst => ?_, fun v hv => ?_, by simp, by simp⟩
  · have hopen : e ∈ (s.job sl).entries.filter (fun e => e.status == .needed || e.status == .claimed) :=
      List.mem_filter.mpr ⟨he, by simpa using hst⟩
    simp [State.mem_withdrawals hopen hv]
  · have hpair : v.pair ∈ (s.pairsOf sl).map (·.pair) := List.mem_map.mpr ⟨v, hv, rfl⟩
    exact ⟨List.mem_append_left _ (List.mem_append_left _ (List.mem_append_right _ (List.mem_map_of_mem hpair))),
      List.mem_append_left _ (List.mem_append_right _ (List.mem_map_of_mem hpair))⟩

/-- What the end of a YIELD job leaves on the view of its pair, where a claim waits for the axis (R57, R128). -/
theorem State.view?_finishJob_yield {o : JobOutcome} {p : Nat} {v : View} (ha : (s.job sl).active = true)
    (ho : (s.job sl).origin = .yield p) (hv : s.view? p = some v) (hh : v.waitedHolder = some sl) :
    (s.finishJob sl o).1.view? p = some { v with yieldAsked := true } := by
  rw [State.finishJob_eq ha, ho]
  have hview : ((s.freed sl o).yieldOver sl (.yield p)).view? p = _ :=
    State.view?_updView_self (s := s.freed sl o) (f := fun w => { w with yieldAsked := w.yieldAsked || w.waitedHolder == some sl }) hv
      (fun _ => rfl)
  rw [hview, hh]
  simp

/-- What the end of a job leaves alone of the state that a yield evaluation reads. -/
theorem State.finishJob_rest {o : JobOutcome} (ha : (s.job sl).active = true) :
    let t := (s.finishJob sl o).1
    t.station = s.station ∧ t.role = s.role ∧ t.bus = s.bus ∧ (∀ x, t.occupiedAt x = s.occupiedAt x) ∧ (t.job sl).active = false := by
  intro t
  have ht : t = (s.freed sl o).yieldOver sl (s.job sl).origin := congrArg Prod.fst (State.finishJob_eq ha)
  have hfree : ((s.freed sl o).job sl).active = false := by
    simp [State.freed, State.setPin, State.setJob, State.job, Job.free]
  rw [ht]
  cases (s.job sl).origin <;> exact ⟨rfl, rfl, rfl, fun _ => rfl, hfree⟩

/-- After a YIELD job the claim that waits is declined CHAIN where the axis is still inside (R55, R57, R128). -/
theorem State.finishJob_chain {o : JobOutcome} {p : Nat} {v : View} {own : Role} (ha : (s.job sl).active = true)
    (ho : (s.job sl).origin = .yield p) (hv : s.view? p = some v) (hp : v.peerRole.isSome = true) (hsl : v.slot = sl)
    (hst : v.state = .ownWait) (hin : s.ownInside v = true) (hf : v.inFlight = none) (hrun : s.station = .run)
    (hb : s.bus.busOff = none) (hrole : s.role = some own) :
    let t := (s.finishJob sl o).1
    (t.evalYield p).2 = [] ∧ t.Sends (t.evalYield p).1 p .decline (passageFrame kDecline own p 6) := by
  intro t
  obtain ⟨hst', hrole', hbus, hocc, hidle⟩ := State.finishJob_rest (o := o) ha
  have hholder : v.waitedHolder = some sl := by
    cases hoth : v.other with
    | peer r k b => simp [View.waitedHolder, hoth, hst, hsl]
    | self sb b => simp [View.peerRole, hoth] at hp
  have hview : t.view? p = some { v with yieldAsked := true } := State.view?_finishJob_yield ha ho hv hholder
  obtain ⟨-, -, hchain⟩ :=
    State.evalYield_clauses hview hp hst (hst'.trans hrun) (hrole'.trans hrole)
  have hidle' : (t.job v.slot).active = false := hsl ▸ hidle
  have hinside : t.ownInside { v with yieldAsked := true } = true := by
    have : t.ownInside { v with yieldAsked := true } = (t.occupiedAt v.slot).meets v.band := by
      simp [State.ownInside, State.inside, View.bandFor]
    rw [this, hocc]
    simpa [State.ownInside, State.inside, View.bandFor] using hin
  obtain ⟨hnil, hsends⟩ := (hchain rfl).2 hidle' |>.1 hinside
  rw [State.markPassed_inactive hidle', if_pos ⟨hf, (congrArg Bif.busOff hbus).trans hb⟩] at hsends
  exact ⟨hnil, hsends⟩

/-- Settles O28: the requests of a STOP, one request by the state of its axis, and the end of a run and of a job as their blocks
answer. -/
theorem stopEndsDrivingJobs : Obligations.StopEndsDrivingJobs := by
  refine ⟨fun s n f rest r scope h hrun hrole hp hscope hsender hall => ?_, fun s sl o hw => ⟨State.endRequest_none, fun ha hc =>
    State.endRequest_clauses hw ha hc⟩, fun s sl k x o hk ha hx => ⟨fun c hc => ?_, fun hc => ?_⟩, fun s sl o ha => ?_,
    fun s sl o p v own ha ho hv hp hsl hst hin hf hrun hb hrole => State.finishJob_chain ha ho hv hp hsl hst hin hf hrun hb hrole⟩
  · let u := s.frameTaken n
    have hjob : ∀ sl, u.job sl = s.job sl := s.frameTaken_job n
    have hdrive : ∀ sl, u.drive sl = s.drive sl := s.frameTaken_drive n
    have hrcs : u.rcs = s.rcs := s.frameTaken_rcs n
    have hx : exec (.stopTaken n) s = .next (settle (u.endAll .stop)) := by
      have hstop : u.stopFrame f = u.endAll .stop :=
        State.stopFrame_taken (by simp [u, hrun]) (by simp [u, hrole]) hp hscope hsender
      rw [← hstop]
      exact congrArg (fun e => Host.Outcome.next (settle e)) (h.take n (fun t f _ => t.stopFrame f))
    have hdrives : ∀ sl, (u.job sl).active = true → u.DrivesOn sl := fun sl hact => by
      obtain ⟨-, hd⟩ := hall sl
      rw [hjob] at hact
      obtain ⟨h1, h2, h3, h4, h5⟩ := hd hact
      rw [← hjob] at hact h1 h2
      rw [← hdrive] at h3 h5
      exact ⟨hact, h1, h2, h3, by rw [hrcs]; exact h4, h5⟩
    obtain ⟨t, hstops, hsettle⟩ := State.settle_stopsAll (u := u) (fun sl => by simp [u, (hall sl).1]) hdrives .stop
    obtain ⟨hadu, -, -, hclu, -, hmvc, -⟩ := t.takeActivity_keeps
    refine ⟨_, hx, ?_, ?_, ?_, fun sl => ?_⟩
    · exact ((State.frameTaken_passages h.head n).trans (State.endAll_evolves (loose := False) u .stop).passages).trans
        (settle_passages (State.endAll_local u .stop))
    · rw [hsettle, hclu, hstops.clu]
      exact s.frameTaken_clu n
    · rw [hsettle, hmvc, hstops.mvc]
      simp only [u, State.frameTaken_mvc]
    · have hj : (settle (u.endAll .stop)).job sl = t.job sl := by rw [hsettle]; exact congrArg (fun m => m.jobs.get sl) hmvc
      have hd : (settle (u.endAll .stop)).drive sl = t.drive sl := by rw [hsettle]; exact congrArg (fun a => a.get sl) hadu
      have hmem : sl ∈ allSlots.filter (fun sl => (u.job sl).active) ↔ (s.job sl).active = true := by
        rw [List.mem_filter, hjob]
        exact and_iff_right (by cases sl <;> decide)
      rw [hj, hd, hstops.job, hstops.drive, hjob, hdrive]
      exact ⟨fun hact => by rw [if_pos (hmem.mpr hact), if_pos (hmem.mpr hact)]; exact ⟨rfl, rfl⟩,
        fun hact => by rw [if_neg (by simp [hmem, hact]), if_neg (by simp [hmem, hact])]; exact ⟨rfl, rfl⟩⟩
  · rw [State.runEnded_outcome ha, hc]
    rfl
  · rw [State.runEnded_outcome ha, hc, Option.getD_none, State.settleOutcome_eq hk hx]
    cases (s.job sl).firstFailure with
    | none => rfl
    | some f => cases f <;> rfl
  · intro undue freed
    refine ⟨?_, State.finishJob_reports ha⟩
    have hfreed : s.freed sl o = freed := by
      simp only [State.freed, State.dropClaims_eq, Bool.and_eq_true, beq_iff_eq, freed, undue]
    have hover : ∀ v : View, (v.yieldAsked || v.waitedHolder == some sl) = if v.waitedHolder = some sl then true else v.yieldAsked :=
      fun v => by by_cases h : v.waitedHolder = some sl <;> simp [h]
    rw [State.finishJob_eq ha, hfreed]
    cases (s.job sl).origin with
    | yield p => simp only [State.yieldOver, hover]
    | scene id | jog | learn => rfl

end Sys2Proof.Machine
end

section
/-! PROOFS. O19: the expiry of a view's wait timer. -/

namespace Sys2Proof.Machine

variable {s t : State} {p : Nat} {v : View}

/-! ### The expiry (R52) -/

/-- The wait timer stops at its expiry, and nothing else changes as the failure is reported. -/
theorem State.waitExpired_fst (s : State) (v : View) : (s.waitExpired v).1 = s.updView v.pair (fun w => { w with waitTimer := none }) := by
  unfold State.waitExpired
  simp only
  split
  · rfl
  · split <;> rfl

theorem State.waitExpired_local (s : State) (v : View) : AllLocal (s.waitExpired v).2 := by
  unfold State.waitExpired
  simp only
  split
  · simp [Report.isLocal]
  · split <;> simp [Report.isLocal]

theorem State.waitExpired_peer (s : State) (hp : v.peerRole.isSome = true) :
    s.waitExpired v =
      (s.updView v.pair (fun w => { w with waitTimer := none }),
        [.withdraw v.slot v.pair .claimed v.state] ++ [.failEntry v.slot v.pair .wait]) := by
  cases ho : v.other with
  | self sb b => simp [View.peerRole, ho] at hp
  | peer r k b => simp only [State.waitExpired, ho]; rfl

theorem exec_waitTimerExpiry {n : Nat} (hv : s.view? p = some v) (hw : v.waitTimer.isSome = true) (hrun : s.station = .run) :
    exec (.waitTimerExpiry p n) s = .next (settle ((s.withSense n).waitExpired v)) := by
  simp only [exec, execWaitTimerExpiry, hv, hw, hrun, and_self, if_true]

/-! ### The QUEUED claim withdrawn, and its entry failed (R50, R51) -/

/-- A claim withdrawn from QUEUED with nothing in flight: the wait timer stops, and the withdrawal CEDE is handed over. -/
theorem State.withdrawClaim_queued {sl : Slot} (hv : s.view? p = some v) (hp : v.peerRole.isSome = true) (hf : v.inFlight = none)
    (hrun : s.station = .run) (hb : s.bus.busOff = none) :
    s.withdrawClaim sl p .claimed .queued = ((s.updView p (fun w => { w with waitTimer := none })).handCede p, []) := by
  cases ho : v.other with
  | self sb b => simp [View.peerRole, ho] at hp
  | peer r k b =>
    simp only [State.withdrawClaim, hv, ho, hf, State.mayHand_of hf hrun hb, ne_eq, not_true_eq_false, if_false, reduceCtorEq, if_true]

/-- The failure of the one entry of a job withdraws no other. -/
theorem State.failEntry_only {sl : Slot} {f : Failure} (ha : (s.job sl).active = true) (ho : (s.job sl).origin ≠ .learn)
    (he : (s.job sl).entries = [⟨p, .claimed⟩]) (hv : s.view? p = some v) (hsl : v.slot = sl) :
    s.failEntry sl p f =
      ((s.setJob sl ((s.job sl).failedAt p f v.band (s.drive sl).span)).setDrive sl ((s.drive sl).cutBack v.band), []) := by
  have hb : v.bandFor sl = some v.band := if_pos hsl
  have hentry : (s.job sl).entryOf p = some .claimed := Job.entryOf_append (a := []) (c := []) he (by simp)
  rw [State.failEntry_open ha ho hentry (by cases f <;> rfl) hv hb, he]
  simp [openAfter, State.withdrawals]

/-- Settles O19: the reports of the expiry keep every passage, and a QUEUED claim that is its job's one entry is withdrawn and fails in
two of them. -/
theorem waitExpiryFailsClaim : Obligations.WaitExpiryFailsClaim := by
  constructor
  · intro s p n v hv hw hrun
    refine ⟨_, exec_waitTimerExpiry hv hw hrun, ?_⟩
    have hpass : SamePassages (s.updView p (fun w => { w with waitTimer := none })) ((s.withSense n).waitExpired v).1 := by
      rw [State.waitExpired_fst, State.view?_some_pair hv]
      exact .ofClu ⟨rfl, rfl, rfl, rfl, rfl, rfl, rfl, rfl, rfl, rfl, rfl, rfl, rfl, rfl, rfl, rfl, fun _ => rfl⟩ rfl rfl rfl rfl
    exact hpass.trans (settle_passages (State.waitExpired_local _ v))
  · intro s p n v j r hv hw hrun hp hst hf hb hrole hj ha ho he hff hwait hroom _
    subst hj
    let s1 := (s.withSense n).updView p (fun w => { w with waitTimer := none })
    let s2 := s1.updView p (fun w => { w with waitTimer := none })
    let s3 := s2.handCede p
    let s4 := (s3.setJob v.slot ((s3.job v.slot).failedAt p .wait v.band (s3.drive v.slot).span)).setDrive v.slot
      ((s3.drive v.slot).cutBack v.band)
    have hv1 : s1.view? p = some { v with waitTimer := none } :=
      State.view?_updView_self (s := s.withSense n) (f := fun w => { w with waitTimer := none }) hv (fun _ => rfl)
    have hv2 : s2.view? p = some { v with waitTimer := none } :=
      State.view?_updView_self (v := { v with waitTimer := none }) (f := fun w => { w with waitTimer := none }) hv1 (fun _ => rfl)
    have hv3 : s3.view? p = some { v with waitTimer := none, inFlight := some .cede } := by
      rw [show s3 = s2.handPassage p .cede (.cede p) from rfl, State.view?_handPassage, hv2, Option.map_some,
        if_pos (State.view?_some_pair hv)]
    have hwithdraw : handle (.withdraw v.slot p .claimed .queued) s1 = (s3, []) :=
      State.withdrawClaim_queued (v := { v with waitTimer := none }) hv1 hp hf hrun hb
    have hjob3 : s3.job v.slot = s.job v.slot :=
      congrArg (fun m => m.jobs.get v.slot) (State.handPassage_rest s2 p .cede (.cede p)).1
    have hfail : handle (.failEntry v.slot p .wait) s3 = (s4, []) :=
      State.failEntry_only (v := { v with waitTimer := none, inFlight := some .cede }) (hjob3 ▸ ha) (hjob3 ▸ ho) (hjob3 ▸ he) hv3 rfl
    have htakes : Takes 2 [.withdraw v.slot p .claimed .queued, .failEntry v.slot p .wait] s1 s4 :=
      Takes.append (a := [.withdraw v.slot p .claimed .queued]) (.answer rfl (by rw [hwithdraw]; exact .nil _))
        (.answer rfl (by rw [hfail]; exact .nil _))
    have hend : settle ((s.withSense n).waitExpired v) = s4.takeActivity := by
      rw [State.waitExpired_peer _ hp, State.view?_some_pair hv, hst]
      exact htakes.settle (by decide)
    obtain ⟨-, -, -, hclu, hgeneral, hmvc, -⟩ := s4.takeActivity_keeps
    have hjob : (settle ((s.withSense n).waitExpired v)).job v.slot = (s.job v.slot).failedAt p .wait v.band (s3.drive v.slot).span := by
      rw [hend, State.job, hmvc, ← hjob3]
      exact (State.job_setJob s3 v.slot v.slot _).trans (if_pos rfl)
    refine ⟨_, { v with waitTimer := none, inFlight := some .cede }, exec_waitTimerExpiry hv hw hrun, ?_, ?_, ?_, ?_, hst, rfl, rfl, ?_⟩
    · rw [hjob, Job.failedAt, he]
      exact failFrom_append (a := []) (by simp) .wait .claimed []
    · rw [hjob, Job.failedAt, hff]
      rfl
    · rw [hjob]
      rfl
    · rw [hend, State.view?_of_clu hclu]
      exact hv3
    · have hands := State.handPassage_hands s2 p .cede (.cede p)
      have hsend : s2.sender = roleCode r := State.sender_of_role hrole
      have hframe : (⟨BitVec.ofNat 11 (512 + 16 * roleCode r), twoBytes p 0⟩ : Frame) = encode s2.sender (.cede p) := by
        rw [hsend, ← passageFrame_cede]
        rfl
      rw [State.Hands, if_pos ⟨hwait, hroom⟩] at hands
      rw [hend, hgeneral, hframe]
      exact hands.1

end Sys2Proof.Machine
end

section
/-! PROOFS. The derivation of the views of several pairs, one after the other (R60, R61, R63). -/

namespace Sys2Proof.Machine

variable {s t u : State} {p q : Nat} {v w : View}

/-! ### A view in a new state, which it may have had before -/

/-- The record of a pair whose view is brought to a state: nothing but R36 touches it. -/
theorem State.view?_viewTo_any (hv : s.view? p = some v) (st : ViewState) :
    ∃ w, (s.viewTo p st).1.view? p = some w ∧ w.state = st ∧ w.slot = v.slot ∧ w.band = v.band ∧ w.other = v.other ∧
      w.inFlight = v.inFlight ∧ w.stakeDue = v.stakeDue := by
  by_cases hst : v.state = st
  · exact ⟨v, by simp [State.viewTo, hv, hst], hst, rfl, rfl, rfl, rfl, rfl⟩
  · obtain ⟨_, h2, h3, h4, h5⟩ := v.goTo_frame st
    exact ⟨_, State.view?_viewTo_self hv hst, h5, h2, h3, h4, by unfold View.goTo; split <;> rfl, by unfold View.goTo; split <;> rfl⟩

theorem State.view?_viewTo_other (h : q ≠ p) (st : ViewState) : (s.viewTo p st).1.view? q = s.view? q := by
  cases hv : s.view? p with
  | none => simp [State.viewTo, hv]
  | some v =>
    by_cases hst : v.state = st
    · simp [State.viewTo, hv, hst]
    · rw [State.view?_viewTo hv hst]
      cases hq : s.view? q with
      | none => rfl
      | some w => rw [Option.map_some, if_neg (by rw [State.view?_some_pair hq]; exact h)]

/-! ### What the derivation of a view reads, and leaves -/

/-- All that a derivation reads, but for the record itself. -/
structure SameReads (s t : State) : Prop where
  station : t.station = s.station
  role : t.role = s.role
  pmon : t.pmon = s.pmon
  busOff : t.bus.busOff = s.bus.busOff
  occupied : ∀ sl, t.occupiedAt sl = s.occupiedAt sl

theorem SameReads.refl (s : State) : SameReads s s := ⟨rfl, rfl, rfl, rfl, fun _ => rfl⟩

theorem SameReads.trans (h : SameReads s t) (g : SameReads t u) : SameReads s u :=
  ⟨g.station.trans h.station, g.role.trans h.role, g.pmon.trans h.pmon, g.busOff.trans h.busOff,
    fun sl => (g.occupied sl).trans (h.occupied sl)⟩

/-- The passage frames that the station has handed over. -/
def State.handedFrames (s : State) : List Frame := s.bus.general ++ s.clu.waiting

/-- What the derivation of a pair's view leaves alone: the other views, and the frames handed over before. -/
structure DerivesOnly (p : Nat) (s t : State) : Prop where
  station : t.station = s.station
  role : t.role = s.role
  pmon : t.pmon = s.pmon
  adu : t.adu = s.adu
  busOff : t.bus.busOff = s.bus.busOff
  timer : t.syncTimer = s.syncTimer
  frames : s.handedFrames ⊆ t.handedFrames
  others : ∀ q, q ≠ p → t.view? q = s.view? q

theorem DerivesOnly.refl (p : Nat) (s : State) : DerivesOnly p s s := ⟨rfl, rfl, rfl, rfl, rfl, rfl, fun _ h => h, fun _ _ => rfl⟩

theorem DerivesOnly.trans (h : DerivesOnly p s t) (g : DerivesOnly p t u) : DerivesOnly p s u :=
  ⟨g.station.trans h.station, g.role.trans h.role, g.pmon.trans h.pmon, g.adu.trans h.adu, g.busOff.trans h.busOff,
    g.timer.trans h.timer, fun _ hf => g.frames (h.frames hf), fun q hq => (g.others q hq).trans (h.others q hq)⟩

theorem State.viewTo_derivesOnly (s : State) (p : Nat) (st : ViewState) : DerivesOnly p s (s.viewTo p st).1 := by
  obtain ⟨hst, hro, hpm, had, hbus, hdue⟩ := s.viewTo_rest p st
  have htimer : (s.viewTo p st).1.syncTimer = s.syncTimer := by
    obtain ⟨vs, es, js, h⟩ := State.viewTo_eq s p st
    rw [h]
  refine ⟨hst, hro, hpm, had, congrArg Bif.busOff hbus, htimer, ?_, fun q hq => State.view?_viewTo_other hq st⟩
  rw [State.handedFrames, State.handedFrames, hbus, Clu.waiting, Clu.waiting, hdue]
  exact fun _ h => h

theorem State.enterConflict_fst (hv : s.view? p = some v) : (s.enterConflict p).1 = (s.viewTo p .conflict).1 := by
  simp only [State.enterConflict, hv]

/-- Frames that wait for a slot go on waiting for it, whatever else waits (R152). -/
theorem State.handPassage_frames (s : State) (p : Nat) (k : PassageKind) (pl : Payload) :
    s.handedFrames ⊆ (s.handPassage p k pl).handedFrames := by
  have hlist : ∀ f (ds : List Due), ds.filterMap (·.frame) ⊆
      (ds.map (fun x => if x = ⟨p, k, none⟩ then ⟨p, k, some f⟩ else x)).filterMap (·.frame) := fun f ds g hg => by
    obtain ⟨x, hx, hxg⟩ := List.mem_filterMap.mp hg
    have hne : x ≠ ⟨p, k, none⟩ := by rintro rfl; simp at hxg
    exact List.mem_filterMap.mpr ⟨x, List.mem_map.mpr ⟨x, hx, if_neg hne⟩, hxg⟩
  intro g hg
  unfold State.handedFrames at *
  unfold State.handPassage State.placePassage
  split
  · simp only [State.setBus_bus, State.setBus_clu, State.dropDue_waiting]
    rcases List.mem_append.mp hg with hg | hg
    · exact List.mem_append_left _ (List.mem_append_left _ hg)
    · exact List.mem_append_right _ hg
  · rcases List.mem_append.mp hg with hg | hg
    · exact List.mem_append_left _ hg
    · refine List.mem_append_right _ ?_
      unfold State.awaitSlot
      split
      · exact hlist _ _ hg
      · rw [State.setDue_waiting, List.filterMap_append]
        exact List.mem_append_left _ hg

theorem State.handStake_derivesOnly (s : State) (p : Nat) : DerivesOnly p s (s.handStake p) := by
  obtain ⟨hmvc, hadu, hrole⟩ := State.handPassage_rest s p .stake (.stake p)
  obtain ⟨-, -, -, hpmon, -⟩ := State.handPassage_sends s p .stake (.stake p)
  refine ⟨?_, hrole, hpmon, hadu, (State.handPassage_evolves (loose := True) s p .stake _).around.busOff,
    ?_, s.handPassage_frames p .stake _, fun q hq => ?_⟩
  · unfold State.handStake State.handPassage State.placePassage
    split <;> rfl
  · unfold State.handStake State.handPassage State.placePassage
    split <;> rfl
  · rw [State.handStake, State.view?_handPassage]
    cases hv : s.view? q with
    | none => rfl
    | some w => rw [Option.map_some, if_neg (by rw [State.view?_some_pair hv]; exact hq)]

theorem State.view?_handStake (hv : s.view? p = some v) : (s.handStake p).view? p = some { v with inFlight := some .stake } := by
  rw [State.handStake, State.view?_handPassage, hv, Option.map_some, if_pos (State.view?_some_pair hv)]

theorem State.oweStake_derivesOnly (s : State) (p : Nat) : DerivesOnly p s (s.oweStake p) := by
  refine ⟨rfl, rfl, rfl, rfl, rfl, rfl, ?_, fun q hq => ?_⟩
  · rw [State.handedFrames, State.handedFrames, State.oweStake, State.recordDue_waiting]
    exact fun _ h => h
  · have hview : (s.oweStake p).view? q = _ := State.view?_updView s p (fun w => { w with stakeDue := true }) (fun _ => rfl) q
    rw [hview]
    cases hv : s.view? q with
    | none => rfl
    | some w => rw [Option.map_some, if_neg (by rw [State.view?_some_pair hv]; exact hq)]

theorem State.view?_oweStake (hv : s.view? p = some v) : (s.oweStake p).view? p = some { v with stakeDue := true } :=
  State.view?_updView_self (f := fun w => { w with stakeDue := true }) hv (fun _ => rfl)

/-! ### The derivation of one view (R60, R63) -/

/-- The state in which a peer pair's view is derived (R60). -/
def State.derivedState (s : State) (v : View) (r : Role) : ViewState :=
  if s.isPresent r = false then .barred
  else if s.peerHolds v = true then (if s.peerInside v = true ∧ s.ownInside v = true then .conflict else .peer)
  else .opened

/-- The state in which a self pair's view is derived (R63). -/
def State.derivedSelf (s : State) (v : View) (sb : Slot) : ViewState :=
  match s.inside v v.slot, s.inside v sb with
  | true, true => .conflict
  | true, false => .heldA
  | false, true => .heldB
  | false, false => .opened

/-- What the derivation of a peer pair's view leaves of its STAKE: sent, due, or as it was (R60, R75). -/
def State.DerivedStake (s : State) (v w : View) (r : Role) (fs : List Frame) : Prop :=
  if s.isPresent r = true ∧ s.peerHolds v = false ∧ s.ownInside v = true then
    (if s.mayHand v = true ∧ s.unheard = false then w.inFlight = some .stake ∧ encode s.sender (.stake v.pair) ∈ fs
     else w.stakeDue = true)
  else w.inFlight = v.inFlight ∧ w.stakeDue = v.stakeDue

/-- A view `v` derived in `s` has become `w`, with the frames `fs` handed over. -/
structure State.Derived (s : State) (v w : View) (fs : List Frame) : Prop where
  slot : w.slot = v.slot
  band : w.band = v.band
  other : w.other = v.other
  peer : ∀ r k b, v.other = .peer r k b → w.state = s.derivedState v r ∧ s.DerivedStake v w r fs
  self : ∀ sb b, v.other = .self sb b → w.state = s.derivedSelf v sb

/-- A derivation in a state that reads the same, with the frames that have come to be handed over since. -/
theorem State.Derived.mono {fs gs : List Frame} (h : t.Derived v w fs) (hr : SameReads s t) (hf : fs ⊆ gs) : s.Derived v w gs := by
  have hpresent : ∀ r, t.isPresent r = s.isPresent r := fun r => by simp only [State.isPresent, State.peer?, hr.pmon]
  have hholds : t.peerHolds v = s.peerHolds v := by simp only [State.peerHolds, State.peer?, hr.pmon]
  have hpeer : t.peerInside v = s.peerInside v := by simp only [State.peerInside, State.peer?, hr.pmon]
  have hinside : ∀ sl, t.inside v sl = s.inside v sl := fun sl => by simp only [State.inside, hr.occupied]
  have hown : t.ownInside v = s.ownInside v := hinside v.slot
  have hunheard : t.unheard = s.unheard := by simp only [State.unheard, hr.pmon]
  have hmay : t.mayHand v = s.mayHand v := by simp only [State.mayHand, hr.station, hr.busOff]
  have hsender : t.sender = s.sender := by simp only [State.sender, hr.role]
  refine ⟨h.slot, h.band, h.other, fun r k b ho => ?_, fun sb b ho => ?_⟩
  · obtain ⟨hstate, hstake⟩ := h.peer r k b ho
    simp only [State.derivedState, State.DerivedStake, hpresent, hholds, hpeer, hown, hunheard, hmay, hsender] at hstate hstake ⊢
    refine ⟨hstate, ?_⟩
    split
    · rename_i hneeds
      rw [if_pos hneeds] at hstake
      split
      · rename_i hsends
        rw [if_pos hsends] at hstake
        exact ⟨hstake.1, hf hstake.2⟩
      · rename_i hsends
        rwa [if_neg hsends] at hstake
    · rename_i hneeds
      rwa [if_neg hneeds] at hstake
  · rw [h.self sb b ho]
    simp only [State.derivedSelf, hinside]

/-- A STAKE asked for by a derivation is sent, or is due (R38, R60, R75). -/
theorem State.requestStake_spec (hv : s.view? p = some v) :
    DerivesOnly p s (s.requestStake p) ∧
      ∃ w, (s.requestStake p).view? p = some w ∧ w.state = v.state ∧ w.slot = v.slot ∧ w.band = v.band ∧ w.other = v.other ∧
        if s.mayHand v = true ∧ s.unheard = false then
          w.inFlight = some .stake ∧ encode s.sender (.stake p) ∈ (s.requestStake p).handedFrames
        else w.stakeDue = true := by
  by_cases hmay : s.mayHand v = true ∧ s.unheard = false
  · have hreq : s.requestStake p = s.handStake p := by simp [State.requestStake, hv, hmay]
    rw [hreq]
    refine ⟨s.handStake_derivesOnly p, _, State.view?_handStake hv, rfl, rfl, rfl, rfl, ?_⟩
    rw [if_pos hmay]
    exact ⟨rfl, State.mem_handPassage s p .stake (.stake p)⟩
  · have hreq : s.requestStake p = s.oweStake p := by
      rw [State.requestStake, hv]
      simp only [Bool.and_eq_true, Bool.not_eq_true', hmay, if_false]
    rw [hreq]
    refine ⟨s.oweStake_derivesOnly p, _, State.view?_oweStake hv, rfl, rfl, rfl, rfl, ?_⟩
    rw [if_neg hmay]

/-- The state that the derivation of a peer pair's view comes to (R60). -/
theorem State.derive_peer {r : Role} {k : Kind} {b : Band} (hv : s.view? p = some v) (ho : v.other = .peer r k b) :
    (s.derive p).1 =
      if s.isPresent r = true ∧ s.peerHolds v = false ∧ s.ownInside v = true then
        (s.viewTo p (s.derivedState v r)).1.requestStake p
      else (s.viewTo p (s.derivedState v r)).1 := by
  cases hpr : s.isPresent r with
  | false => simp [State.derive, State.derivedState, hv, ho, hpr]
  | true =>
    cases hh : s.peerHolds v with
    | true =>
      by_cases hin : s.peerInside v = true ∧ s.ownInside v = true
      · simp [State.derive, State.derivedState, hv, ho, hpr, hh, hin, State.enterConflict_fst hv]
      · simp [State.derive, State.derivedState, hv, ho, hpr, hh, hin]
    | false =>
      cases hown : s.ownInside v <;> simp [State.derive, State.derivedState, hv, ho, hpr, hh, hown, Effect.andThen]

/-- The state that the derivation of a self pair's view comes to (R63). -/
theorem State.derive_self {sb : Slot} {b : Band} (hv : s.view? p = some v) (ho : v.other = .self sb b) :
    (s.derive p).1 = (s.viewTo p (s.derivedSelf v sb)).1 := by
  cases h1 : s.inside v v.slot <;> cases h2 : s.inside v sb <;>
    simp [State.derive, State.derivedSelf, hv, ho, h1, h2, State.enterConflict_fst hv]

/-- The derivation of an OPEN pair of a PRESENT peer with the own axis inside calls for a STAKE (R60). -/
theorem State.derived_requestStake {r : Role} {k : Kind} {b : Band} (hv : s.view? p = some v) (ho : v.other = .peer r k b)
    (hneeds : s.isPresent r = true ∧ s.peerHolds v = false ∧ s.ownInside v = true) {st : ViewState} (hst : st = s.derivedState v r) :
    DerivesOnly p s ((s.viewTo p st).1.requestStake p) ∧
      ∃ w, ((s.viewTo p st).1.requestStake p).view? p = some w ∧
        s.Derived v w ((s.viewTo p st).1.requestStake p).handedFrames := by
  obtain ⟨hstation, hro, hpm, -, hbus, -⟩ := s.viewTo_rest p st
  obtain ⟨w, hw, h1, h2, h3, h4, h5, -⟩ := State.view?_viewTo_any hv st
  obtain ⟨hreq, x, hx, g1, g2, g3, g4, hstake⟩ := State.requestStake_spec hw
  have hmay : (s.viewTo p st).1.mayHand w = s.mayHand v := by simp only [State.mayHand, hstation, hbus, h5]
  have hunheard : (s.viewTo p st).1.unheard = s.unheard := by simp only [State.unheard, hpm]
  have hsender : (s.viewTo p st).1.sender = s.sender := by simp only [State.sender, hro]
  refine ⟨(s.viewTo_derivesOnly p st).trans hreq, x, hx, g2.trans h2, g3.trans h3, g4.trans h4, fun r' k' b' ho' => ?_,
    fun sb c hs => by simp [ho] at hs⟩
  obtain ⟨rfl, -, -⟩ : r = r' ∧ k = k' ∧ b = b' := by simpa [ho] using ho'
  rw [State.DerivedStake, if_pos hneeds, State.view?_some_pair hv, g1, h1]
  rw [hmay, hunheard, hsender] at hstake
  exact ⟨hst, hstake⟩

/-- The derivation of a pair's view: the state of R60 or R63 with its STAKE, and nothing else. -/
theorem State.derive_spec (hv : s.view? p = some v) :
    DerivesOnly p s (s.derive p).1 ∧
      ∃ w, (s.derive p).1.view? p = some w ∧ s.Derived v w (s.derive p).1.handedFrames := by
  cases ho : v.other with
  | peer r k b =>
    rw [State.derive_peer hv ho]
    split
    next hneeds => exact State.derived_requestStake hv ho hneeds rfl
    next hno =>
      obtain ⟨w, hw, h1, h2, h3, h4, h5, h6⟩ := State.view?_viewTo_any hv (s.derivedState v r)
      refine ⟨s.viewTo_derivesOnly p _, w, hw, h2, h3, h4, fun r' k' b' ho' => ?_, fun sb c hs => by simp [ho] at hs⟩
      obtain ⟨rfl, -, -⟩ : r = r' ∧ k = k' ∧ b = b' := by simpa [ho] using ho'
      rw [State.DerivedStake, if_neg hno]
      exact ⟨h1, h5, h6⟩
  | self sb b =>
    rw [State.derive_self hv ho]
    obtain ⟨w, hw, h1, h2, h3, h4, -, -⟩ := State.view?_viewTo_any hv (s.derivedSelf v sb)
    refine ⟨s.viewTo_derivesOnly p _, w, hw, h2, h3, h4, fun r k c hp => by simp [ho] at hp, fun sb' c hs => ?_⟩
    obtain ⟨rfl, -⟩ : sb = sb' ∧ b = c := by simpa [ho] using hs
    exact h1

/-! ### The derivation of several views -/

/-- What the derivation of the views of a list of pairs leaves alone, and that each is derived from the state it began in. -/
structure DerivesAll (ps : List Nat) (s t : State) : Prop where
  reads : SameReads s t
  adu : t.adu = s.adu
  timer : t.syncTimer = s.syncTimer
  frames : s.handedFrames ⊆ t.handedFrames
  others : ∀ q, q ∉ ps → t.view? q = s.view? q
  derived : ∀ q v, q ∈ ps → s.view? q = some v → ∃ w, t.view? q = some w ∧ s.Derived v w t.handedFrames

/-- A derivation in a state in which it moves no interval. -/
theorem DerivesOnly.reads (h : DerivesOnly p s t) (ho : ∀ sl, t.occupiedAt sl = s.occupiedAt sl) : SameReads s t :=
  ⟨h.station, h.role, h.pmon, h.busOff, ho⟩

/-- Each of several pairs is derived from the state that the first one is derived in, as long as what `K` says of the states between
them keeps the intervals of the axes. -/
theorem overAll_derives {K : State → Prop} {P : View → Prop}
    (hK : ∀ t q v, K t → t.view? q = some v → P v → K (t.derive q).1 ∧ ∀ sl, (t.derive q).1.occupiedAt sl = t.occupiedAt sl)
    {ps : List Nat} (hn : ps.Nodup) (hs : K s) (hP : ∀ q v, q ∈ ps → s.view? q = some v → P v) :
    DerivesAll ps s (overAll State.derive ps s).1 ∧ K (overAll State.derive ps s).1 := by
  induction ps generalizing s with
  | nil => exact ⟨⟨SameReads.refl s, rfl, rfl, fun _ h => h, fun _ _ => rfl, fun _ _ h => by simp at h⟩, hs⟩
  | cons p ps ih =>
    obtain ⟨hp, hn⟩ := List.nodup_cons.mp hn
    have hfirst : DerivesOnly p s (s.derive p).1 ∧ K (s.derive p).1 ∧ (∀ sl, (s.derive p).1.occupiedAt sl = s.occupiedAt sl) := by
      cases hv : s.view? p with
      | none =>
        have hd : (s.derive p).1 = s := by simp [State.derive, hv]
        rw [hd]
        exact ⟨DerivesOnly.refl p s, hs, fun _ => rfl⟩
      | some v =>
        obtain ⟨hk, ho⟩ := hK s p v hs hv (hP p v (by simp) hv)
        exact ⟨(State.derive_spec hv).1, hk, ho⟩
    obtain ⟨honly, hk, hocc⟩ := hfirst
    have hsame : ∀ q ∈ ps, (s.derive p).1.view? q = s.view? q := fun q hq => honly.others q (fun h => hp (h ▸ hq))
    obtain ⟨hall, hk'⟩ := ih hn hk (fun q v hq hv => hP q v (by simp [hq]) ((hsame q hq).symm.trans hv))
    change DerivesAll (p :: ps) s (overAll State.derive ps (s.derive p).1).1 ∧ K (overAll State.derive ps (s.derive p).1).1
    refine ⟨⟨(honly.reads hocc).trans hall.reads, hall.adu.trans honly.adu, hall.timer.trans honly.timer, fun _ hf => hall.frames (honly.frames hf),
      fun q hq => ?_, fun q v hq hv => ?_⟩, hk'⟩
    · obtain ⟨hqp, hqs⟩ : q ≠ p ∧ q ∉ ps := by simpa using hq
      exact (hall.others q hqs).trans (honly.others q hqp)
    · rcases List.mem_cons.mp hq with rfl | hq
      · obtain ⟨-, w, hw, hder⟩ := State.derive_spec hv
        exact ⟨w, (hall.others q hp).trans hw, hder.mono (SameReads.refl s) hall.frames⟩
      · obtain ⟨w, hw, hder⟩ := hall.derived q v hq ((hsame q hq).trans hv)
        exact ⟨w, hw, hder.mono (honly.reads hocc) (fun _ h => h)⟩

end Sys2Proof.Machine
end

section
/-! PROOFS. The return of a peer derives the BARRED views shared with it, and moves no envelope (R61, O21). -/

namespace Sys2Proof.Machine

variable {s t : State} {p : Nat} {v w : View}

/-! ### Changes of a view that give no axis a passage, and take none from it -/

/-- A change of the views that leaves to an axis its bands and the passages it holds leaves the pairs it sits in. -/
theorem State.pairsOf_map {g : View → View} {sl : Slot} (ht : t.clu.views = s.clu.views.map g)
    (hg : ∀ w ∈ s.clu.views, (g w).bandFor sl = w.bandFor sl) : t.pairsOf sl = (s.pairsOf sl).map g := by
  rw [State.pairsOf, State.pairsOf, ht, List.filter_map]
  exact congrArg (List.map g) (List.filter_congr fun w hw => by rw [Function.comp_apply, hg w hw])

theorem State.bands_map {g : View → View} {sl : Slot} (ht : t.clu.views = s.clu.views.map g)
    (hg : ∀ w ∈ s.clu.views, (g w).bandFor sl = w.bandFor sl ∧ (g w).gives sl = w.gives sl) :
    t.unheldBands sl = s.unheldBands sl ∧ t.conditionFor sl = s.conditionFor sl := by
  have hpairs : t.pairsOf sl = (s.pairsOf sl).map g := State.pairsOf_map ht (fun w hw => (hg w hw).1)
  have hmem : ∀ w ∈ s.pairsOf sl, w ∈ s.clu.views := fun w hw => (List.mem_filter.mp hw).1
  constructor
  · rw [State.unheldBands, State.unheldBands, hpairs, List.filter_map, List.filterMap_map]
    have hfilter : (s.pairsOf sl).filter ((fun v => !v.gives sl) ∘ g) = (s.pairsOf sl).filter (fun v => !v.gives sl) :=
      List.filter_congr fun w hw => by rw [Function.comp_apply, (hg w (hmem w hw)).2]
    rw [hfilter]
    exact List.filterMap_congr fun w hw => (hg w (hmem w (List.mem_filter.mp hw).1)).1
  · have hall : ((s.pairsOf sl).map g).all (fun v => v.gives sl) = (s.pairsOf sl).all (fun v => v.gives sl) := by
      rw [List.all_map, Bool.eq_iff_iff, List.all_eq_true, List.all_eq_true]
      exact forall₂_congr fun w hw => by rw [Function.comp_apply, (hg w (hmem w hw)).2]
    rw [State.conditionFor, State.conditionFor, hpairs, hall]

/-- What an envelope recomputed is built from. -/
theorem State.nextEnvelope_of_bands {sl : Slot} (hrole : t.role = s.role) (hadu : t.adu = s.adu) (hseated : t.seated = s.seated)
    (henv : t.clu.envelopes = s.clu.envelopes) (hb : t.unheldBands sl = s.unheldBands sl) (hc : t.conditionFor sl = s.conditionFor sl) :
    t.nextEnvelope sl = s.nextEnvelope sl := by
  have hkind : t.kindAt sl = s.kindAt sl := by rw [State.kindAt, State.kindAt, hrole]
  have hdrive : t.drive sl = s.drive sl := by rw [State.drive, State.drive, hadu]
  simp only [State.nextEnvelope, State.envelopeFor, henv, hkind, hdrive, hb, hc, hseated]

/-- What the occupied interval of an axis is computed from (R20). -/
theorem State.occupiedAt_of {sl : Slot} (hrole : t.role = s.role) (hadu : t.adu = s.adu) (henv : t.clu.envelopes = s.clu.envelopes) :
    t.occupiedAt sl = s.occupiedAt sl := by
  have hkind : t.kindAt sl = s.kindAt sl := by rw [State.kindAt, State.kindAt, hrole]
  have hdrive : t.drive sl = s.drive sl := by rw [State.drive, State.drive, hadu]
  simp only [State.occupiedAt, hkind, hdrive, henv]

/-- The envelopes stand as last built (R21), and no pair stands twice on the clearance list. -/
structure State.Built (s : State) : Prop where
  nodup : (s.clu.views.map (·.pair)).Nodup
  envelopes : ∀ sl, s.clu.envelopes.get sl = s.nextEnvelope sl

theorem State.Built.map {g : View → View} (h : s.Built) (hrole : t.role = s.role) (hadu : t.adu = s.adu) (hseated : t.seated = s.seated)
    (henv : t.clu.envelopes = s.clu.envelopes) (ht : t.clu.views = s.clu.views.map g)
    (hg : ∀ w ∈ s.clu.views, (g w).pair = w.pair ∧ ∀ sl, (g w).bandFor sl = w.bandFor sl ∧ (g w).gives sl = w.gives sl) : t.Built := by
  refine ⟨?_, fun sl => ?_⟩
  · rw [ht, List.map_map]
    have hpairs : s.clu.views.map ((·.pair) ∘ g) = s.clu.views.map (·.pair) := List.map_congr_left fun w hw => (hg w hw).1
    rw [hpairs]
    exact h.nodup
  · obtain ⟨hb, hc⟩ := State.bands_map ht (fun w hw => (hg w hw).2 sl)
    rw [henv, h.envelopes, State.nextEnvelope_of_bands hrole hadu hseated henv hb hc]

/-- An envelope that stands as last built is the same when it is built again. -/
theorem State.Built.buildEnvelope (h : s.Built) (sl : Slot) : s.buildEnvelope sl = s := by
  rw [State.buildEnvelope, State.setEnvelope, ← h.envelopes sl, PerSlot.set_get_self]

theorem State.Built.buildEnvelopes (h : s.Built) (l : List Slot) : l.foldl State.buildEnvelope s = s := by
  induction l with
  | nil => rfl
  | cons a l ih => rw [List.foldl_cons, h.buildEnvelope, ih]

/-- A view that gives its axes no passage before and after leaves every envelope as it was built. -/
theorem State.Built.viewTo {st : ViewState} (h : s.Built) (hv : s.view? p = some v)
    (hg : ∀ sl, v.gives sl = false ∧ (v.goTo st).gives sl = false) :
    (s.viewTo p st).1.Built ∧ (s.viewTo p st).1.clu.envelopes = s.clu.envelopes := by
  by_cases hst : v.state = st
  · simp [State.viewTo, hv, hst, h]
  · have hu : (s.updView v.pair (fun w => w.goTo st)).Built := by
      refine h.map (g := fun w => if w.pair = v.pair then w.goTo st else w) rfl rfl rfl rfl rfl fun w hw => ?_
      by_cases hwp : w.pair = v.pair
      · obtain rfl : w = v := State.view_eq_of_nodup h.nodup hv hw (hwp.trans (State.view?_some_pair hv))
        obtain ⟨h1, h2, h3, h4, -⟩ := w.goTo_frame st
        rw [if_pos rfl]
        exact ⟨h1, fun sl => ⟨by simp only [View.bandFor, h2, h3, h4], by rw [(hg sl).1, (hg sl).2]⟩⟩
      · rw [if_neg hwp]
        exact ⟨rfl, fun _ => ⟨rfl, rfl⟩⟩
    have hmoved : s.moveView v st = s.updView v.pair (fun w => w.goTo st) := hu.buildEnvelopes _
    have hgrant : (s.updView v.pair (fun w => w.goTo st)).grantEntries (v.goTo st) = s.updView v.pair (fun w => w.goTo st) := by
      simp only [State.grantEntries, (hg _).2, Bool.false_and, Bool.false_eq_true, if_false]
      exact List.foldl_fixed _
    simp only [State.viewTo, hv, hst, if_false, hmoved, hgrant]
    exact ⟨hu, rfl⟩

/-- What a STAKE asked for changes of the views: its own record, and there the frame in flight or due. -/
theorem State.requestStake_views (s : State) (p : Nat) :
    ∃ g : View → View, (s.requestStake p).clu.views = s.clu.views.map g ∧
      (∀ w, (g w).pair = w.pair ∧ ∀ sl, (g w).bandFor sl = w.bandFor sl ∧ (g w).gives sl = w.gives sl) ∧
      (s.requestStake p).role = s.role ∧ (s.requestStake p).adu = s.adu ∧ (s.requestStake p).seated = s.seated ∧
      (s.requestStake p).clu.envelopes = s.clu.envelopes ∧ (s.requestStake p).mvc = s.mvc := by
  have hnone : ∀ w : View, (id w).pair = w.pair ∧ ∀ sl, (id w).bandFor sl = w.bandFor sl ∧ (id w).gives sl = w.gives sl :=
    fun _ => ⟨rfl, fun _ => ⟨rfl, rfl⟩⟩
  unfold State.requestStake
  split
  · exact ⟨id, (List.map_id _).symm, hnone, rfl, rfl, rfl, rfl, rfl⟩
  · split
    · unfold State.handStake State.handPassage State.placePassage
      refine ⟨fun w => if w.pair = p then { w with inFlight := some .stake } else w, ?_, fun w => ?_, ?_⟩
      · split <;> rfl
      · dsimp only; split <;> exact ⟨rfl, fun _ => ⟨rfl, rfl⟩⟩
      · split <;> exact ⟨rfl, rfl, rfl, rfl, rfl⟩
    · refine ⟨fun w => if w.pair = p then { w with stakeDue := true } else w, rfl, fun w => ?_, rfl, rfl, rfl, rfl, rfl⟩
      dsimp only; split <;> exact ⟨rfl, fun _ => ⟨rfl, rfl⟩⟩

theorem State.Built.requestStake (h : s.Built) (p : Nat) :
    (s.requestStake p).Built ∧ (s.requestStake p).clu.envelopes = s.clu.envelopes := by
  obtain ⟨g, hviews, hg, hrole, hadu, hseated, henv, -⟩ := s.requestStake_views p
  exact ⟨h.map hrole hadu hseated henv hviews (fun w _ => hg w), henv⟩

/-! ### The return of a peer (R61) -/

theorem View.other_of_peerRole {r : Role} (hr : v.peerRole = some r) : ∃ k b, v.other = .peer r k b := by
  unfold View.peerRole at hr
  split at hr
  next r' k b ho => exact ⟨k, b, by rw [ho, Option.some.inj hr]⟩
  next => simp at hr

/-- A BARRED view is derived, and moves no interval. -/
theorem State.Built.derive {r : Role} (h : s.Built) (hv : s.view? p = some v) (hr : v.peerRole = some r) (hst : v.state = .barred) :
    (s.derive p).1.Built ∧ ∀ sl, (s.derive p).1.occupiedAt sl = s.occupiedAt sl := by
  have hp : v.peerRole.isSome = true := by simp [hr]
  obtain ⟨k, b, ho⟩ := View.other_of_peerRole hr
  have hgoes : ∀ sl, v.gives sl = false ∧ (v.goTo (s.derivedState v r)).gives sl = false := fun sl => by
    obtain ⟨-, -, -, h4, h5⟩ := v.goTo_frame (s.derivedState v r)
    rw [View.gives_peer hp, View.gives_peer (by simpa [View.peerRole, h4] using hp), h5, hst, State.derivedState]
    refine ⟨rfl, ?_⟩
    split
    · rfl
    · split
      · split <;> rfl
      · rfl
  obtain ⟨hbuilt, henv⟩ := h.viewTo hv hgoes
  obtain ⟨honly, -⟩ := State.derive_spec hv
  suffices hall : (s.derive p).1.Built ∧ (s.derive p).1.clu.envelopes = s.clu.envelopes from
    ⟨hall.1, fun sl => State.occupiedAt_of honly.role honly.adu hall.2⟩
  rw [State.derive_peer hv ho]
  split
  · obtain ⟨hbuilt', henv'⟩ := hbuilt.requestStake p
    exact ⟨hbuilt', henv'.trans henv⟩
  · exact ⟨hbuilt, henv⟩

/-- The BARRED pairs shared with a role: those that its return derives (R61). -/
def State.barredWith (s : State) (r : Role) : List Nat :=
  (s.pairsWith r).filter (fun p => match s.view? p with | some v => v.state == .barred | none => false)

theorem State.peerReturned_eq (s : State) (r : Role) : s.peerReturned r = overAll State.derive (s.barredWith r) s := rfl

theorem State.mem_barredWith {r : Role} (hn : (s.clu.views.map (·.pair)).Nodup) (hv : s.view? p = some v) :
    p ∈ s.barredWith r ↔ v.peerRole = some r ∧ v.state = .barred := by
  rw [State.barredWith, List.mem_filter, hv]
  simp only [State.pairsWith, List.mem_map, List.mem_filter, beq_iff_eq]
  constructor
  · rintro ⟨⟨w, ⟨hw, hr⟩, hp⟩, hst⟩
    obtain rfl := State.view_eq_of_nodup hn hv hw hp
    exact ⟨hr, hst⟩
  · exact fun ⟨hr, hst⟩ => ⟨⟨v, ⟨List.mem_of_find?_eq_some hv, hr⟩, State.view?_some_pair hv⟩, hst⟩

/-- The views derived at the return of a peer, each from the state in which the peer returned (R61). -/
theorem State.peerReturned_derives {r : Role} (h : s.Built) : DerivesAll (s.barredWith r) s (s.peerReturned r).1 := by
  have hsub : List.Sublist (s.barredWith r) (s.clu.views.map (·.pair)) := List.filter_sublist.trans (List.filter_sublist.map _)
  rw [State.peerReturned_eq]
  refine (overAll_derives (K := State.Built) (P := fun v => v.peerRole = some r ∧ v.state = .barred)
    (fun t q v ht hv hP => ht.derive hv hP.1 hP.2) (h.nodup.sublist hsub) h (fun q v hq hv => ?_)).1
  exact (State.mem_barredWith h.nodup hv).mp hq

/-- A BARRED view that a returning peer shares, derived (R60, R61). -/
theorem State.peerReturned_view {r : Role} (hpr : s.isPresent r = true) (h : s.Built) (hv : s.view? p = some v)
    (hr : v.peerRole = some r) (hst : v.state = .barred) :
    ∃ w, (s.peerReturned r).1.view? p = some w ∧ w.slot = v.slot ∧ w.other = v.other ∧
      w.state = (if s.peerHolds v = true then (if s.peerInside v = true ∧ s.ownInside v = true then .conflict else .peer) else .opened) ∧
      (s.peerHolds v = false → s.ownInside v = true → w.inFlight = some .stake ∨ w.stakeDue = true) := by
  obtain ⟨k, b, ho⟩ := View.other_of_peerRole hr
  obtain ⟨w, hw, hder⟩ := (State.peerReturned_derives h).derived p v ((State.mem_barredWith h.nodup hv).mpr ⟨hr, hst⟩) hv
  obtain ⟨hstate, hstake⟩ := hder.peer r k b ho
  refine ⟨w, hw, hder.slot, hder.other, by simp [hstate, State.derivedState, hpr], fun hh hin => ?_⟩
  have hneeds : s.isPresent r = true ∧ s.peerHolds v = false ∧ s.ownInside v = true := ⟨hpr, hh, hin⟩
  rw [State.DerivedStake, if_pos hneeds] at hstake
  split at hstake
  · exact .inl hstake.1
  · exact .inr hstake

end Sys2Proof.Machine
end

section
/-! PROOFS. SYNC exit derives every view, with no job and every axis at rest (R60, R63, R171, O8). -/

namespace Sys2Proof.Machine

variable {s t u : State} {p : Nat} {v w : View}

/-- No job, and no axis driven, braking or holding: the state of a station in SYNC. -/
def State.Resting (s : State) : Prop :=
  ∀ sl : Slot, (s.job sl).active = false ∧ (s.drive sl).axis ≠ .driving ∧ (s.drive sl).axis ≠ .braking ∧ (s.drive sl).axis ≠ .holding

theorem State.Resting.of_same (h : s.Resting) (hmvc : t.mvc = s.mvc) (hadu : t.adu = s.adu) : t.Resting := fun sl => by
  rw [State.job, State.drive, hmvc, hadu]
  exact h sl

/-! ### What a derivation does in a station at rest -/

/-- With no job there is no entry to grant. -/
theorem State.Resting.grantEntries (h : s.Resting) (v : View) : s.grantEntries v = s := by
  have hstep : ∀ l : List Slot,
      l.foldl (fun t sl => if v.gives sl && (t.job sl).active then t.setJob sl ((t.job sl).mark v.pair v.grant) else t) s = s := fun l => by
    induction l with
    | nil => rfl
    | cons a l ih => simp only [List.foldl_cons, (h a).1, Bool.and_false, Bool.false_eq_true, if_false, ih]
  exact hstep _

theorem State.Resting.viewTo (h : s.Resting) (p : Nat) (st : ViewState) : (s.viewTo p st).1.mvc = s.mvc := by
  cases hv : s.view? p with
  | none => simp [State.viewTo, hv]
  | some v =>
    by_cases hst : v.state = st
    · simp [State.viewTo, hv, hst]
    · obtain ⟨es, hm⟩ := State.moveView_eq s v st
      have hmoved : (s.moveView v st).Resting := h.of_same (by rw [hm]; rfl) (by rw [hm]; rfl)
      simp only [State.viewTo, hv, hst, if_false, hmoved.grantEntries]
      rw [hm]
      rfl

/-- What a derivation reports in a station at rest: the envelopes to hand on, and nothing of a job. -/
def Report.isIdle : Report → Bool
  | .envelope _ | .learnCheck _ => true
  | _ => false

theorem State.viewTo_idle (s : State) (p : Nat) (st : ViewState) : ∀ x ∈ (s.viewTo p st).2, x.isIdle = true := by
  unfold State.viewTo
  split
  · simp
  · split
    · simp
    · intro x hx
      rcases List.mem_append.mp hx with hx | hx <;> obtain ⟨_, -, rfl⟩ := List.mem_map.mp hx <;> rfl

theorem State.Resting.enterConflict_idle (h : s.Resting) (hv : s.view? p = some v) : ∀ x ∈ (s.enterConflict p).2, x.isIdle = true := by
  have hrest : (s.viewTo p .conflict).1.Resting := h.of_same (h.viewTo p _) (s.viewTo_rest p _).2.2.2.1
  have hnone : v.ownSlots.flatMap (fun sl => (s.viewTo p .conflict).1.conflictReports p sl) = [] :=
    List.flatMap_eq_nil_iff.mpr fun sl _ => by simp [State.conflictReports, (hrest sl).1]
  simp only [State.enterConflict, hv, hnone, List.nil_append]
  exact s.viewTo_idle p .conflict

theorem State.Resting.derive (h : s.Resting) (p : Nat) : (s.derive p).1.Resting ∧ ∀ x ∈ (s.derive p).2, x.isIdle = true := by
  cases hv : s.view? p with
  | none => simp [State.derive, hv, h]
  | some v =>
    refine ⟨h.of_same ?_ (State.derive_spec hv).1.adu, ?_⟩
    · cases ho : v.other with
      | peer r k b =>
        rw [State.derive_peer hv ho]
        split
        · obtain ⟨-, -, -, -, -, -, -, hmvc⟩ := (s.viewTo p (s.derivedState v r)).1.requestStake_views p
          exact hmvc.trans (h.viewTo p _)
        · exact h.viewTo p _
      | self sb b =>
        rw [State.derive_self hv ho]
        exact h.viewTo p _
    · have hto : ∀ st, ∀ x ∈ (s.viewTo p st).2, x.isIdle = true := s.viewTo_idle p
      have hin : ∀ x ∈ (s.enterConflict p).2, x.isIdle = true := h.enterConflict_idle hv
      simp only [State.derive, hv]
      repeat' split
      all_goals first
        | exact hto _
        | exact hin
        | simpa [Effect.andThen] using hto .opened

/-- The occupied interval of an axis at rest is that of its count, whatever its envelope (R19, R20). -/
theorem State.Resting.occupiedAt (h : s.Resting) (hrole : t.role = s.role) (hadu : t.adu = s.adu) (sl : Slot) :
    t.occupiedAt sl = s.occupiedAt sl := by
  have hkind : t.kindAt sl = s.kindAt sl := by rw [State.kindAt, State.kindAt, hrole]
  have hdrive : t.drive sl = s.drive sl := by rw [State.drive, State.drive, hadu]
  obtain ⟨-, h1, h2, -⟩ := h sl
  have hbound : ∀ k, reachBound k (s.drive sl).axis (s.drive sl).lock (s.drive sl).vset = 0 := fun k => by
    unfold reachBound
    split <;> simp_all
  have hreach : ∀ e d c, reachCount e d c 0 = c := fun e d c => by
    unfold reachCount
    split <;> simp
  simp only [State.occupiedAt, hkind, hdrive, hbound, hreach]

theorem State.Resting.derives (h : s.Resting) (ps : List Nat) :
    ∀ x ∈ (overAll State.derive ps s).2, x.isIdle = true := by
  induction ps generalizing s with
  | nil => simp [overAll]
  | cons p ps ih =>
    intro x hx
    change x ∈ (s.derive p).2 ++ (overAll State.derive ps (s.derive p).1).2 at hx
    rcases List.mem_append.mp hx with hx | hx
    · exact (h.derive p).2 x hx
    · exact ih (h.derive p).1 x hx

/-! ### What follows a derivation in a station at rest -/

/-- What the answers to `Report.isIdle` leave alone in a station at rest. -/
structure OnlyEnvelopes (s t : State) : Prop where
  station : t.station = s.station
  timer : t.syncTimer = s.syncTimer
  peers : t.pmon.peers = s.pmon.peers
  bus : t.bus = s.bus
  mvc : t.mvc = s.mvc
  adu : t.adu = s.adu
  due : t.clu.due = s.clu.due
  views : t.clu.views = s.clu.views

theorem OnlyEnvelopes.refl (s : State) : OnlyEnvelopes s s := ⟨rfl, rfl, rfl, rfl, rfl, rfl, rfl, rfl⟩

/-- No axis at rest and no job answers an envelope that is handed on. -/
theorem State.Resting.handle_idle (h : u.Resting) {r : Report} (hr : r.isIdle = true) (ht : OnlyEnvelopes u t) :
    OnlyEnvelopes u (handle r t).1 ∧ ∀ x ∈ (handle r t).2, x.isIdle = true := by
  have hrest : t.Resting := h.of_same ht.mvc ht.adu
  cases r with
  | envelope sl =>
    obtain ⟨-, hd, -, hh⟩ := hrest sl
    have hpassive : (t.buildEnvelope sl).onEnvelope sl = (t.buildEnvelope sl, []) :=
      State.onEnvelope_passive (fun ha => absurd ha hd) hh
    simp only [handle, State.handEnvelope, hpassive]
    exact ⟨⟨ht.station, ht.timer, ht.peers, ht.bus, ht.mvc, ht.adu, ht.due, ht.views⟩, by simp⟩
  | learnCheck sl =>
    simp only [handle, State.learnCheck, (hrest sl).1, Bool.false_eq_true, false_and, if_false]
    exact ⟨ht, by simp⟩
  | _ => simp [Report.isIdle] at hr

theorem State.Resting.cascade_idle (h : u.Resting) (n : Nat) {rs : List Report} (hr : ∀ x ∈ rs, x.isIdle = true) :
    OnlyEnvelopes u (cascade n rs [] u) :=
  cascade_keeps (J := OnlyEnvelopes u) (R := fun x => x.isIdle = true) (fun _ _ hr ht => h.handle_idle hr ht) n rs [] u (OnlyEnvelopes.refl u)
    hr (by simp)

/-- What a step in a station at rest ends with, beyond the envelopes (R140). -/
theorem State.Resting.settle_idle (h : u.Resting) {rs : List Report} (hr : ∀ x ∈ rs, x.isIdle = true) :
    let t := settle (u, rs)
    t.station = u.station ∧ t.syncTimer = u.syncTimer ∧ t.pmon.peers = u.pmon.peers ∧ t.handedFrames = u.handedFrames ∧
      ∀ p, t.view? p = u.view? p := by
  have hkept : OnlyEnvelopes u (cascade reportBound rs [] u) := h.cascade_idle reportBound hr
  obtain ⟨-, -, -, hclu, hgeneral, -, hpeers, -, hstation, htimer⟩ := State.takeActivity_keeps (cascade reportBound rs [] u)
  refine ⟨hstation.trans hkept.station, htimer.trans hkept.timer, hpeers.trans hkept.peers, ?_, fun p => ?_⟩
  · rw [State.handedFrames, State.handedFrames, settle, hgeneral, hclu, hkept.bus, Clu.waiting, Clu.waiting, hkept.due]
  · rw [State.view?, State.view?, settle, hclu, hkept.views]

/-! ### SYNC exit (R171) -/

theorem State.sameAround_syncExit (s : State) : SameAround s (settle s.syncExit) :=
  (State.syncExit_evolves (loose := True) s trivial).around.trans (settle_around _)

/-- SYNC exit: the views derived, each from the state in which the station comes into RUN. -/
theorem State.syncExit_derives (h : s.Resting) (hstation : s.station = .sync) (hn : (s.clu.views.map (·.pair)).Nodup) :
    DerivesAll s.pairs { s with station := .run, syncTimer := none } s.syncExit.1 ∧ s.syncExit.1.Resting ∧
      ∀ x ∈ s.syncExit.2, x.isIdle = true := by
  have hrest : State.Resting { s with station := .run, syncTimer := none } := h
  have hexit : s.syncExit = overAll State.derive s.pairs { s with station := .run, syncTimer := none } := by
    rw [State.syncExit, if_pos hstation]
  rw [hexit]
  obtain ⟨hall, hkeeps⟩ := overAll_derives (K := State.Resting) (P := fun _ => True)
    (fun t q v ht hv _ => ⟨(ht.derive q).1, ht.occupiedAt (State.derive_spec hv).1.role (State.derive_spec hv).1.adu⟩)
    hn hrest (fun _ _ _ _ => trivial)
  exact ⟨hall, hkeeps, hrest.derives s.pairs⟩

/-- In RUN the STAKE is sent where nothing of the pair is in flight, the bus is open and the station is heard (R38, R60, R75). -/
theorem State.DerivedStake.inRun {r own : Role} {fs : List Frame} (h : s.DerivedStake v w r fs) (hrun : s.station = .run)
    (hrole : s.role = some own) :
    if s.isPresent r = true ∧ s.peerHolds v = false ∧ s.ownInside v = true then
      (if v.inFlight = none ∧ s.bus.busOff = none ∧ s.unheard = false then
        w.inFlight = some .stake ∧ passageFrame kStake own v.pair 0 ∈ fs
       else w.stakeDue = true)
    else w.inFlight = v.inFlight ∧ w.stakeDue = v.stakeDue := by
  simpa only [State.DerivedStake, State.mayHand_iff hrun, and_assoc, State.sender_of_role hrole, ← passageFrame_stake] using h

theorem State.mem_pairs (hv : s.view? p = some v) : p ∈ s.pairs :=
  List.mem_map.mpr ⟨v, List.mem_of_find?_eq_some hv, State.view?_some_pair hv⟩

/-- Settles O8: SYNC exit derives every view from the same records, since a derivation moves no interval of an axis at rest, and what
it reports is answered in the envelopes alone. -/
theorem syncTimerDerivesViews : Obligations.SyncTimerDerivesViews := by
  intro s own hsync htimer hrole hn hrest
  obtain ⟨hall, hresting, hidle⟩ := State.syncExit_derives hrest hsync hn
  obtain ⟨hstation, hstop, hpeers, hframes, hviews⟩ := hresting.settle_idle hidle
  refine ⟨settle s.syncExit, ?_, hstation.trans hall.reads.station, hstop.trans hall.timer, s.sameAround_syncExit,
    hpeers.trans (congrArg Pmon.peers hall.reads.pmon), fun p v r k b hv ho => ?_, fun p v sb b hv ho => ?_⟩
  · have hgo : s.station = .sync ∧ s.syncTimer.isSome = true := ⟨hsync, htimer⟩
    simp only [exec, execSyncTimerExpiry, if_pos hgo]
  · obtain ⟨w, hw, hder⟩ := hall.derived p v (State.mem_pairs hv) hv
    obtain ⟨hstate, hstake⟩ := hder.peer r k b ho
    refine ⟨w, (hviews p).trans hw, hder.slot, hder.band, hder.other, hstate, ?_⟩
    have hsent := hstake.inRun rfl hrole
    rw [State.view?_some_pair hv, ← hframes] at hsent
    exact hsent
  · obtain ⟨w, hw, hder⟩ := hall.derived p v (State.mem_pairs hv) hv
    exact ⟨w, (hviews p).trans hw, hder.slot, hder.band, hder.other, hder.self sb b ho⟩

end Sys2Proof.Machine
end

section
/-! PROOFS. What a local report keeps of a peer pair's view in OWN: the state, and the waiter standing (R36). One lemma for each
operation that changes a view; every other leaves the clearance list as it was. -/

namespace Sys2Proof.Machine

variable {s t u : State} {p : Nat} {v w : View}

/-! ### Operations that leave the clearance list as it was -/

theorem foldl_views {α : Type} {f : State → α → State} (hf : ∀ s x, (f s x).clu.views = s.clu.views) (l : List α) (s : State) :
    (l.foldl f s).clu.views = s.clu.views := by
  induction l generalizing s with
  | nil => rfl
  | cons x l ih => rw [List.foldl, ih, hf]

namespace State

@[simp] theorem setEnvelope_views (s : State) (sl : Slot) (e : Envelope) : (s.setEnvelope sl e).clu.views = s.clu.views := rfl

@[simp] theorem setReferenced_views (s : State) (sl : Slot) (b : Bool) : (s.setReferenced sl b).clu.views = s.clu.views := rfl

@[simp] theorem driveOff_views (s : State) (sl : Slot) (a : AfterBrake) : (s.driveOff sl a).clu.views = s.clu.views := rfl

@[simp] theorem rest_views (s : State) (sl : Slot) (st : AxisState) (r : Option Run) : (s.rest sl st r).clu.views = s.clu.views := by
  unfold rest; simp only; split <;> simp

@[simp] theorem enterDriving_views (s : State) (sl : Slot) (r : Run) : (s.enterDriving sl r).1.clu.views = s.clu.views := by
  unfold enterDriving; simp only; repeat' split
  all_goals simp

@[simp] theorem testRun_views (s : State) (sl : Slot) (r : Run) : (s.testRun sl r).1.clu.views = s.clu.views := by
  unfold testRun tryDriving endRun; repeat' split
  all_goals simp

@[simp] theorem beginRun_views (s : State) (sl : Slot) (r : Run) : (s.beginRun sl r).1.clu.views = s.clu.views := by
  unfold beginRun openRun endRun; repeat' split
  all_goals simp

@[simp] theorem takeBraking_views (s : State) (sl : Slot) (r : Run) : (s.takeBraking sl r).1.clu.views = s.clu.views := by
  unfold takeBraking dropWaiting joinBraking tryDriving openRun endRun Effect.andThen
  simp only; repeat' split
  all_goals simp

@[simp] theorem takeRun_views (s : State) (sl : Slot) (r : Run) : (s.takeRun sl r).1.clu.views = s.clu.views := by
  unfold takeRun; simp only; repeat' split
  all_goals simp

@[simp] theorem beginWaiting_views (s : State) (sl : Slot) : (s.beginWaiting sl).1.clu.views = s.clu.views := by
  unfold beginWaiting; split <;> simp

@[simp] theorem onEnvelope_views (s : State) (sl : Slot) : (s.onEnvelope sl).1.clu.views = s.clu.views := by
  unfold onEnvelope; simp only; repeat' split
  all_goals simp

@[simp] theorem aduControl_views (s : State) (sl : Slot) : (s.aduControl sl).1.clu.views = s.clu.views := by
  unfold aduControl shiftPulses driveLoop; simp only; repeat' split
  all_goals simp

@[simp] theorem stopDrives_views (s : State) : s.stopDrives.clu.views = s.clu.views := foldl_views (fun t sl => by split <;> rfl) _ _

@[simp] theorem driveEntered_views (s : State) : s.driveEntered.1.clu.views = s.clu.views := by
  unfold driveEntered takeSample; simp only; split <;> simp

@[simp] theorem failEntry_views (s : State) (sl : Slot) (p : Nat) (f : Failure) : (s.failEntry sl p f).1.clu.views = s.clu.views := by
  unfold failEntry; simp only; repeat' split
  all_goals simp

@[simp] theorem handRun_views (s : State) (sl : Slot) : (s.handRun sl).1.clu.views = s.clu.views := by
  unfold handRun; simp only; split <;> simp

@[simp] theorem learnCheck_views (s : State) (sl : Slot) : (s.learnCheck sl).1.clu.views = s.clu.views := by
  unfold learnCheck; simp only; split <;> simp

@[simp] theorem endRequest_views (s : State) (sl : Slot) (o : JobOutcome) : (s.endRequest sl o).1.clu.views = s.clu.views := by
  unfold endRequest; simp only; repeat' split
  all_goals simp

@[simp] theorem runEnded_views (s : State) (sl : Slot) (e : RunEnd) : (s.runEnded sl e).1.clu.views = s.clu.views := by
  unfold runEnded takeRawCount continueScene startMove; simp only; repeat' split
  all_goals simp

@[simp] theorem startQueued_views (s : State) (sl : Slot) : (s.startQueued sl).1.clu.views = s.clu.views := by
  unfold startQueued startScene startReference startJog startLearn startMove; simp only; repeat' split
  all_goals rfl

@[simp] theorem sceneGates_views (s : State) (id : Nat) : (s.sceneGates id).1.clu.views = s.clu.views := by
  unfold sceneGates; split <;> rfl

@[simp] theorem loadSlot_views (s : State) (sl : Slot) (id : Nat) : (s.loadSlot sl id).1.clu.views = s.clu.views := by
  unfold loadSlot; repeat' split
  all_goals rfl

@[simp] theorem startYield_views (s : State) (p : Nat) (sl : Slot) : (s.startYield p sl).1.clu.views = s.clu.views := by
  unfold startYield; repeat' split
  all_goals rfl

@[simp] theorem jogRequest_views (s : State) (sl : Slot) (dir : Dir) : (s.jogRequest sl dir).1.clu.views = s.clu.views := by
  unfold jogRequest; repeat' split
  all_goals rfl

theorem drainOutgoing_views (n : Nat) (s : State) : (drainOutgoing n s).clu.views = s.clu.views := by
  induction n generalizing s with
  | zero => rfl
  | succ n ih =>
    unfold drainOutgoing
    repeat' split
    · rfl
    · exact ih _
    · rfl

@[simp] theorem sendResult_views (s : State) (e : SceneEntry) : (s.sendResult e).clu.views = s.clu.views :=
  (drainOutgoing_views _ _).trans (drainOutgoing_views Config.outgoingCapacity s)

@[simp] theorem enterOutcome_views (s : State) (sl : Slot) (m : Member) (o : JobOutcome) :
    (s.enterOutcome sl m o).1.clu.views = s.clu.views := by
  unfold enterOutcome; simp only; repeat' split
  all_goals simp

end State

/-! ### A peer pair's view in OWN, kept -/

/-- Every peer pair's view in OWN is in OWN still, with the waiter standing it had. -/
def OwnKept (s t : State) : Prop :=
  ∀ p v, s.view? p = some v → v.peerRole.isSome = true → v.state = .own →
    ∃ w, t.view? p = some w ∧ w.other = v.other ∧ w.state = .own ∧ w.waiter = v.waiter

namespace OwnKept

theorem of_views (h : t.clu.views = s.clu.views) : OwnKept s t := fun p v hv _ hst =>
  ⟨v, by rw [State.view?, h]; exact hv, rfl, hst, rfl⟩

theorem refl (s : State) : OwnKept s s := of_views rfl

theorem trans (h : OwnKept s t) (g : OwnKept t u) : OwnKept s u := fun p v hv hp hst => by
  obtain ⟨w, hw, ho, hws, hwait⟩ := h p v hv hp hst
  obtain ⟨x, hx, hxo, hxs, hxw⟩ := g p w hw (by simpa [View.peerRole, ho] using hp) hws
  exact ⟨x, hx, hxo.trans ho, hxs, hxw.trans hwait⟩

theorem after (h : OwnKept t u) (ht : t.clu.views = s.clu.views) : OwnKept s u := (of_views ht).trans h

theorem andThen {e : Effect} {f : State → Effect} (h : OwnKept s e.1) (g : OwnKept e.1 (f e.1).1) : OwnKept s (e.andThen f).1 := h.trans g

/-- A record changed in what is neither its state nor its waiter, unless it is in no peer pair's. -/
theorem updView (s : State) (p : Nat) (f : View → View) (hf : ∀ w, (f w).pair = w.pair)
    (hk : ∀ v, s.view? p = some v → v.peerRole.isSome = true →
      (f v).other = v.other ∧ (f v).state = v.state ∧ (f v).waiter = v.waiter) : OwnKept s (s.updView p f) := fun q v hv hp hst => by
  rw [State.view?_updView s p f hf q, hv, Option.map_some]
  by_cases hq : v.pair = p
  · obtain rfl : q = p := (State.view?_some_pair hv).symm.trans hq
    obtain ⟨ho, hs, hw⟩ := hk v hv hp
    exact ⟨_, if_pos hq ▸ rfl, ho, hs.trans hst, hw⟩
  · exact ⟨v, by rw [if_neg hq], rfl, hst, rfl⟩

/-- A view that is none of a peer pair's in OWN comes into another state. -/
theorem viewTo (s : State) (p : Nat) (st : ViewState) (h : ∀ v, s.view? p = some v → v.peerRole.isSome = true → v.state ≠ .own) :
    OwnKept s (s.viewTo p st).1 := fun q v hv hp hst => by
  by_cases hq : q = p
  · subst hq
    exact absurd hst (h v hv hp)
  · exact ⟨v, (State.view?_viewTo_other hq st).trans hv, rfl, hst, rfl⟩

end OwnKept

theorem overAll_ownKept {α : Type} {f : State → α → Effect} (hf : ∀ s x, OwnKept s (f s x).1) (xs : List α) (s : State) :
    OwnKept s (overAll f xs s).1 := by
  induction xs generalizing s with
  | nil => exact .refl s
  | cons x xs ih => exact (hf s x).andThen (ih _)

/-! ### Operations that change views -/

namespace State

/-- A record's frame in flight, and what is due of it, are no part of what is kept. -/
theorem note_ownKept (s : State) (p : Nat) (f : View → View)
    (hf : ∀ w, (f w).pair = w.pair ∧ (f w).other = w.other ∧ (f w).state = w.state ∧ (f w).waiter = w.waiter) :
    OwnKept s (s.updView p f) := .updView s p f (fun w => (hf w).1) (fun w _ _ => (hf w).2)

theorem handPassage_ownKept (s : State) (p : Nat) (k : PassageKind) (pl : Payload) : OwnKept s (s.handPassage p k pl) := by
  refine (note_ownKept s p (fun v => { v with inFlight := some k }) (fun _ => ⟨rfl, rfl, rfl, rfl⟩)).trans (.of_views ?_)
  unfold handPassage placePassage
  split <;> rfl

theorem serveDueStake_ownKept (s : State) (p : Nat) : OwnKept s (s.serveDueStake p) :=
  (note_ownKept s p (fun w => { w with stakeDue := false }) (fun _ => ⟨rfl, rfl, rfl, rfl⟩)).trans (handPassage_ownKept _ _ _ _)

theorem clearStake_ownKept (s : State) (p : Nat) : OwnKept s (s.clearStake p) :=
  (note_ownKept s p (fun w => { w with stakeDue := false }) (fun _ => ⟨rfl, rfl, rfl, rfl⟩)).trans (.of_views rfl)

theorem oweCede_ownKept (s : State) (p : Nat) : OwnKept s (s.oweCede p) :=
  (note_ownKept s p (fun w => { w with cedeDue := true }) (fun _ => ⟨rfl, rfl, rfl, rfl⟩)).trans (.of_views rfl)

theorem serveDue_ownKept (s : State) (p : Nat) : OwnKept s (s.serveDue p) := by
  unfold serveDue
  repeat' split
  · exact .refl s
  · exact .refl s
  · exact (note_ownKept s p (fun w => { w with cedeDue := false, waitTimer := none }) (fun _ => ⟨rfl, rfl, rfl, rfl⟩)).trans
      (handPassage_ownKept _ _ _ _)
  · exact serveDueStake_ownKept s p
  · exact clearStake_ownKept s p
  · exact .refl s

theorem serve_ownKept (s : State) (p : Nat) : OwnKept s (s.serve p).1 := by
  unfold serve
  split
  · exact .refl s
  · split
    · exact .refl s
    · exact serveDue_ownKept s p

theorem serveStake_ownKept (s : State) (p : Nat) : OwnKept s (s.serveStake p).1 := by
  unfold serveStake
  repeat' split
  · exact .refl s
  · exact serveDueStake_ownKept s p
  · exact .refl s
  · exact clearStake_ownKept s p
  · exact .refl s

/-- A record of a self pair is none of a peer pair. -/
theorem self_ownKept {sb : Slot} {b : Band} (hv : s.view? p = some v) (ho : v.other = .self sb b) (f : View → View)
    (hf : ∀ w, (f w).pair = w.pair) : OwnKept s (s.updView p f) :=
  .updView s p f hf fun w hw hp => by
    obtain rfl : v = w := Option.some.inj (hv.symm.trans hw)
    simp [View.peerRole, ho] at hp

theorem decline_ownKept (hv : s.view? v.pair = some v) (r : Reason) : OwnKept s (s.decline v r).1 := by
  unfold decline
  split
  · split
    · exact handPassage_ownKept _ _ _ _
    · exact .refl s
  · rename_i ho
    split
    · exact .refl s
    · exact self_ownKept hv ho View.noWaiter (fun _ => rfl)

theorem evalYield_ownKept (s : State) (p : Nat) : OwnKept s (s.evalYield p).1 := by
  unfold evalYield
  split
  · exact .refl s
  · rename_i v hv
    split
    · exact .refl s
    · rename_i h _
      have hmark : OwnKept s (s.markPassed h) := .of_views (by simp)
      have hview : (s.markPassed h).view? v.pair = some v := by
        rw [State.view?, State.markPassed_clu, State.view?_some_pair hv]
        exact hv
      simp only
      repeat' split
      all_goals first
        | exact hmark
        | exact hmark.trans (decline_ownKept hview _)
        | exact hmark.trans (note_ownKept _ p _ (fun _ => ⟨rfl, rfl, rfl, rfl⟩))

theorem release_ownKept (s : State) (p : Nat) : OwnKept s (s.release p).1 := by
  cases hv : s.view? p with
  | none => simp only [release, hv]; exact .refl s
  | some v =>
    have hmark : (v.ownSlots.foldl State.markPassed s).clu.views = s.clu.views := foldl_views (fun t sl => by simp) _ _
    cases ho : v.other with
    | peer r k b =>
      simp only [release, hv, ho]
      split
      · exact (handPassage_ownKept _ p .cede _).after hmark
      · exact .of_views hmark
    | self sb b =>
      have hto : ∀ st, OwnKept s ((v.ownSlots.foldl State.markPassed s).viewTo p st).1 := fun st => by
        refine OwnKept.after (.viewTo _ p st fun w hw hp => ?_) hmark
        rw [State.view?, hmark] at hw
        obtain rfl : v = w := Option.some.inj (hv.symm.trans hw)
        simp [View.peerRole, ho] at hp
      simp only [release, hv, ho]
      repeat' split
      · exact .of_views hmark
      · exact hto _
      · exact hto _
      · exact .of_views hmark

theorem claimInConflict_ownKept (s : State) (sl : Slot) (v : View) : OwnKept s (s.claimInConflict sl v).1 := by
  unfold claimInConflict
  repeat' split
  all_goals exact .refl s

theorem claimOpen_ownKept (hv : s.view? p = some v) (hst : v.state ≠ .own) (sl : Slot) : OwnKept s (s.claimOpen sl p).1 := by
  refine OwnKept.trans ?_ (handPassage_ownKept _ p .claim _)
  refine OwnKept.after (t := s.setJob sl ((s.job sl).mark p (fun _ => .claimed))) (.viewTo _ p .pending fun w hw _ => ?_) rfl
  obtain rfl : v = w := Option.some.inj (hv.symm.trans hw)
  exact hst

theorem decideEntry_ownKept (s : State) (sl : Slot) (p : Nat) : OwnKept s (s.decideEntry sl p).1 := by
  unfold decideEntry
  simp only
  split
  · split
    · exact .refl s
    · rename_i v hv
      split
      · rename_i ho
        repeat' split
        · exact .of_views rfl
        · exact claimInConflict_ownKept s sl v
        · exact self_ownKept hv ho _ (fun w => by unfold View.enterClaim; split <;> rfl)
      · split
        · exact .refl s
        · cases hst : v.state with
          | opened | pending =>
            simp only
            repeat' split
            · exact .refl s
            · exact claimOpen_ownKept hv (by simp [hst]) sl
            · exact .of_views rfl
          | peer =>
            simp only
            repeat' split
            · exact .refl s
            · exact (handPassage_ownKept _ p .claim _).after rfl
            · exact .of_views rfl
          | conflict => exact claimInConflict_ownKept s sl v
          | _ => exact .of_views rfl
  · exact .refl s

theorem loseFlight_ownKept (s : State) (p : Nat) : OwnKept s (s.loseFlight p).1 := by
  refine OwnKept.trans ?_ (serveDue_ownKept _ p)
  have hu : OwnKept s (s.updView p (fun w => { w with inFlight := none })) := note_ownKept s p _ (fun _ => ⟨rfl, rfl, rfl, rfl⟩)
  split
  · rename_i w hw
    split
    · rename_i hst
      refine hu.trans (.viewTo _ p .opened fun x hx _ => ?_)
      obtain rfl : w = x := Option.some.inj (hw.symm.trans hx)
      simp [hst]
    · exact hu
  · exact hu

theorem withdrawFlight_ownKept (s : State) (p : Nat) : OwnKept s (s.withdrawFlight p).1 := by
  unfold withdrawFlight
  repeat' split
  · exact (loseFlight_ownKept _ p).after rfl
  · exact oweCede_ownKept s p
  · exact (loseFlight_ownKept _ p).after rfl
  · exact oweCede_ownKept s p

theorem withdrawClaim_ownKept (s : State) (sl : Slot) (p : Nat) (st : EntryStatus) (v0 : ViewState) :
    OwnKept s (s.withdrawClaim sl p st v0).1 := by
  have hu : OwnKept s (s.updView p (fun w => { w with waitTimer := none })) := note_ownKept s p _ (fun _ => ⟨rfl, rfl, rfl, rfl⟩)
  unfold withdrawClaim
  split
  · exact .refl s
  · rename_i v hv
    split
    · rename_i ho
      refine self_ownKept hv ho _ (fun w => ?_)
      have hdrop : (w.dropClaim (v.selfAxis sl)).pair = w.pair := by unfold View.dropClaim; split <;> rfl
      split
      · exact hdrop
      · exact hdrop
    · simp only
      repeat' split
      · exact .of_views rfl
      · exact withdrawFlight_ownKept s p
      · exact hu
      · exact hu.trans (handPassage_ownKept _ p .cede _)
      · exact hu.trans (oweCede_ownKept _ p)
      · rename_i hst
        refine .viewTo s p .opened fun w hw _ => ?_
        obtain rfl : v = w := Option.some.inj (hv.symm.trans hw)
        simp [hst]
      · exact .refl s

theorem yieldOver_ownKept (s : State) (sl : Slot) (o : JobOrigin) : OwnKept s (s.yieldOver sl o) := by
  cases o with
  | yield p =>
    exact note_ownKept s p (fun v => { v with yieldAsked := v.yieldAsked || v.waitedHolder == some sl }) (fun _ => ⟨rfl, rfl, rfl, rfl⟩)
  | _ => exact .refl s

theorem finishJob_ownKept (s : State) (sl : Slot) (o : JobOutcome) : OwnKept s (s.finishJob sl o).1 := by
  unfold finishJob
  simp only
  split
  · exact (yieldOver_ownKept _ sl _).after rfl
  · exact .refl s

end State

/-- An update keeps a pair a self pair. -/
theorem Evolves.self_kept (h : Evolves True s t) (hs : ∀ v, s.view? p = some v → v.peerRole = none) :
    ∀ v, t.view? p = some v → v.peerRole = none := fun w hw => by
  have hk := h.peerRole_kept p
  cases hv : s.view? p with
  | none => simp [hv, hw] at hk
  | some v =>
    have hwv : w.peerRole = v.peerRole := by simpa [hv, hw] using hk
    exact hwv.trans (hs v hv)

namespace State

/-- A decision of the arbiter is on a self pair (R62). -/
theorem arbitrateAxis_ownKept (hs : ∀ v, s.view? p = some v → v.peerRole = none) (x : SelfAxis) : OwnKept s (s.arbitrateAxis p x).1 := by
  have hself : ∀ f : View → View, (∀ w, (f w).pair = w.pair) → OwnKept s (s.updView p f) := fun f hf =>
    .updView s p f hf fun w hw hp => by simp [hs w hw] at hp
  have hpair : ∀ w, (View.dropClaim x w).pair = w.pair := fun w => (View.dropClaim_frame x w).1
  unfold arbitrateAxis
  split
  · exact .refl s
  · rename_i w hw
    split
    · exact .refl s
    · rename_i st _
      repeat' split
      · refine (hself _ hpair).trans (.viewTo _ p _ fun y hy hp => ?_)
        have hy' : y.peerRole = none := (Evolves.note s p _ (View.dropClaim_frame x)).self_kept hs y hy
        simp [hy'] at hp
      · exact (hself _ hpair).trans (.of_views rfl)
      · rw [waitSelf, State.view?_some_pair hw]
        exact (hself (fun w => { w.dropClaim x with
          waiting := some x, waitTimer := some Config.waitTime, waiter := some st, yieldAsked := false }) hpair).trans (.of_views rfl)
      · exact .refl s

theorem arbitrate_ownKept (s : State) (p : Nat) : OwnKept s (s.arbitrate p).1 := by
  unfold arbitrate
  split
  · exact .refl s
  · rename_i v hv
    split
    · exact .refl s
    · rename_i ho
      have hs : ∀ w, s.view? p = some w → w.peerRole = none := fun w hw => by
        obtain rfl : v = w := Option.some.inj (hv.symm.trans hw)
        simp [View.peerRole, ho]
      exact (arbitrateAxis_ownKept hs _).andThen
        (arbitrateAxis_ownKept ((State.arbitrateAxis_evolves s p v.firstAxis hs).self_kept hs) _)

end State

/-! ### A whole step -/

/-- No local report changes a peer pair's view in OWN, or its waiter. -/
theorem handle_ownKept (r : Report) (s : State) (h : r.isLocal = true) : OwnKept s (handle r s).1 := by
  cases r with
  | envelope sl => exact .of_views (State.onEnvelope_views _ sl)
  | release p => exact State.release_ownKept s p
  | evalYield p => exact State.evalYield_ownKept s p
  | serve p => exact State.serve_ownKept s p
  | serveStake p =>
    unfold handle
    simp only
    split
    · exact .refl s
    · exact State.serveStake_ownKept s p
  | arbitrate p => exact State.arbitrate_ownKept s p
  | decide sl p => exact State.decideEntry_ownKept s sl p
  | withdraw sl p st v0 => exact State.withdrawClaim_ownKept s sl p st v0
  | failEntry sl p f => exact .of_views (State.failEntry_views s sl p f)
  | handRun sl => exact .of_views (State.handRun_views s sl)
  | learnCheck sl => exact .of_views (State.learnCheck_views s sl)
  | aduControl sl => exact .of_views (State.aduControl_views s sl)
  | beginWaiting sl => exact .of_views (State.beginWaiting_views s sl)
  | driveEntered => exact .of_views (State.driveEntered_views s)
  | endRequest sl o => exact .of_views (State.endRequest_views s sl o)
  | endRequests sls o => exact overAll_ownKept (fun t sl => .of_views (State.endRequest_views t sl o)) sls s
  | runEnded sl e => exact .of_views (State.runEnded_views s sl e)
  | finishJob sl o => exact State.finishJob_ownKept s sl o
  | startQueued sl => exact .of_views (State.startQueued_views s sl)
  | sceneOutcome sl m o => exact .of_views (State.enterOutcome_views s sl m o)
  | sceneGates id => exact .of_views (State.sceneGates_views s id)
  | loadSlot sl id => exact .of_views (State.loadSlot_views s sl id)
  | startYield p sl => exact .of_views (State.startYield_views s p sl)
  | jogRequest sl dir => exact .of_views (State.jogRequest_views s sl dir)
  | unheardCleared => exact overAll_ownKept State.serveStake_ownKept _ s
  | supplyCritical | replaceJob | unheardEntered => exact .of_views rfl
  | retest | peerLost | peerReturned | peerTests | clearForced | pairTests | syncExit => simp [Report.isLocal] at h

/-- Local reports, and the activity that ends their step, keep every peer pair's view in OWN, with its waiter. -/
theorem cascade_ownKept (n : Nat) {rs : List Report} (h : AllLocal rs) (s : State) : OwnKept s (cascade n rs [] s).takeActivity := by
  have hkept : OwnKept s (cascade n rs [] s) :=
    cascade_keeps (J := OwnKept s) (R := fun r => r.isLocal = true)
      (fun r t hr ht => ⟨ht.trans (handle_ownKept r t hr), handle_local r t hr⟩) n rs [] s (.refl s) h (by simp)
  obtain ⟨-, -, -, hclu, -⟩ := (cascade n rs [] s).takeActivity_keeps
  exact hkept.trans (.of_views (congrArg Clu.views hclu))

/-- Local reports, and the activity that ends their step, keep the passages of the peer pairs. -/
theorem cascade_passages (n : Nat) {rs : List Report} (h : AllLocal rs) (s : State) : SamePassages s (cascade n rs [] s).takeActivity :=
  ((cascade_evolves (loose := False) n rs [] s (.inr ⟨h, AllLocal.nil⟩)).trans (.wake _)).passages

end Sys2Proof.Machine
end

section
/-! PROOFS. The loss of a peer bars the views shared with it, and an expectancy timer's expiry (R66, R69, R71, O21). -/

namespace Sys2Proof.Machine

variable {s t u : State} {p : Nat} {v w : View}

/-! ### The loss of a peer, on the views shared with it (R71) -/

/-- What the loss of its peer makes of a view: one in OWN stays, one in OWN+WAIT forgets its waiter, and any other is BARRED. -/
structure View.LostAs (v w : View) : Prop where
  slot : w.slot = v.slot
  other : w.other = v.other
  own : v.state = .own → w.state = .own ∧ w.waiter = v.waiter
  ownWait : v.state = .ownWait → w.state = .own ∧ w.waiter = none
  barred : v.state = .opened ∨ v.state = .pending ∨ v.state = .peer ∨ v.state = .queued ∨ v.state = .barred ∨ v.state = .conflict →
    w.state = .barred

/-- The states in which a loss leaves a view as it is (R71). -/
def ViewState.outlastsLoss : ViewState → Bool
  | .own | .barred | .heldA | .heldB => true
  | .ownWait | .opened | .pending | .peer | .queued | .conflict => false

theorem State.loseView_outlasts (hv : s.view? p = some v) (h : v.state.outlastsLoss = true) : s.loseView p = (s, []) := by
  cases hst : v.state <;> simp_all [State.loseView, ViewState.outlastsLoss]

/-- The state that a loss brings a view to which it does not leave as it is (R71). -/
def ViewState.afterLoss : ViewState → ViewState
  | .ownWait => .own
  | .opened | .pending | .peer | .queued | .conflict | .own | .barred | .heldA | .heldB => .barred

theorem State.loseView_fst (hv : s.view? p = some v) (h : v.state.outlastsLoss = false) :
    (s.loseView p).1 = ((s.updView p (fun w => { w with reconcile := 0 })).viewTo p v.state.afterLoss).1 := by
  cases hst : v.state with
  | own | barred | heldA | heldB => simp [hst, ViewState.outlastsLoss] at h
  | ownWait | opened | pending | peer | queued | conflict => simp [State.loseView, hv, hst, ViewState.afterLoss, Effect.andThen]

/-- The loss of its peer, on one view. -/
theorem State.loseView_view (hv : s.view? p = some v) :
    ∃ w, (s.loseView p).1.view? p = some w ∧ v.LostAs w ∧ w.state.outlastsLoss = true := by
  cases hout : v.state.outlastsLoss with
  | true =>
    rw [State.loseView_outlasts hv hout]
    refine ⟨v, hv, ⟨rfl, rfl, fun h => ⟨h, rfl⟩, fun h => ?_, fun h => ?_⟩, hout⟩
    · simp [h, ViewState.outlastsLoss] at hout
    · rcases h with h | h | h | h | h | h <;> simp_all [ViewState.outlastsLoss]
  | false =>
    rw [State.loseView_fst hv hout]
    have hu : (s.updView p (fun w => { w with reconcile := 0 })).view? p = some { v with reconcile := 0 } :=
      State.view?_updView_self hv (fun _ => rfl)
    have hst : ({ v with reconcile := 0 } : View).state ≠ v.state.afterLoss := by
      cases hs : v.state <;> simp_all [ViewState.outlastsLoss, ViewState.afterLoss]
    obtain ⟨h1, h2, h3, h4, h5⟩ := View.goTo_frame { v with reconcile := 0 } v.state.afterLoss
    refine ⟨_, State.view?_viewTo_self hu hst, ⟨h2, h4, fun h => ?_, fun h => ?_, fun h => ?_⟩, ?_⟩
    · simp [h, ViewState.outlastsLoss] at hout
    · rw [h5, h]
      refine ⟨rfl, ?_⟩
      unfold View.goTo
      split <;> rfl
    · rw [h5]
      rcases h with h | h | h | h | h | h <;> rw [h] <;> rfl
    · rw [h5]
      cases v.state <;> rfl

theorem State.loseView_other {q : Nat} (hq : q ≠ p) : (s.loseView p).1.view? q = s.view? q := by
  cases hv : s.view? p with
  | none => simp [State.loseView, hv]
  | some v =>
    cases hout : v.state.outlastsLoss with
    | true => rw [State.loseView_outlasts hv hout]
    | false =>
      rw [State.loseView_fst hv hout, State.view?_viewTo_other hq, State.view?_updView s p (fun w => { w with reconcile := 0 }) (fun _ => rfl)]
      cases hw : s.view? q with
      | none => rfl
      | some w => rw [Option.map_some, if_neg (by rw [State.view?_some_pair hw]; exact hq)]

theorem State.loseView_rest (s : State) (p : Nat) : (s.loseView p).1.station = s.station ∧ (s.loseView p).1.pmon = s.pmon := by
  cases hv : s.view? p with
  | none => simp [State.loseView, hv]
  | some v =>
    cases hout : v.state.outlastsLoss with
    | true => rw [State.loseView_outlasts hv hout]; exact ⟨rfl, rfl⟩
    | false =>
      obtain ⟨hst, -, hpm, -⟩ := (s.updView p (fun w => { w with reconcile := 0 })).viewTo_rest p v.state.afterLoss
      rw [State.loseView_fst hv hout]
      exact ⟨hst, hpm⟩

theorem State.loseView_local (s : State) (p : Nat) : AllLocal (s.loseView p).2 := by
  have hto : ∀ st, AllLocal ((s.updView p (fun w => { w with reconcile := 0 })).viewTo p st).2 := fun st => State.viewTo_local _ p st
  have hfails : ∀ v sts, AllLocal ((s.entryAmong v sts).toList.flatMap (claimFails v .peerLost)) := fun v sts r hr => by
    obtain ⟨st, -, hr⟩ := List.mem_flatMap.mp hr
    rcases List.mem_pair.mp hr with rfl | rfl <;> rfl
  unfold State.loseView
  split
  · simp
  · split
    · simp
    · simp
    · simp
    · simp
    · exact AllLocal.andThen (hto _) (by simp [Report.isLocal])
    · exact hto _
    · exact hto _
    · exact AllLocal.andThen (hto _) (hfails _ _)
    · exact AllLocal.andThen (hto _) (hfails _ _)
    · exact AllLocal.andThen (hto _) (hfails _ _)

/-- The loss of its peer, on several views: one that it does not change any more stays. -/
theorem State.overAll_loseView_stays {q : Nat} (ps : List Nat) (hv : s.view? q = some v) (h : v.state.outlastsLoss = true) :
    (overAll State.loseView ps s).1.view? q = some v := by
  induction ps generalizing s with
  | nil => exact hv
  | cons p ps ih =>
    refine ih (s := (s.loseView p).1) ?_
    by_cases hq : q = p
    · subst hq
      rw [State.loseView_outlasts hv h]
      exact hv
    · exact (State.loseView_other hq).trans hv

theorem State.overAll_loseView_view {q : Nat} {ps : List Nat} (hq : q ∈ ps) (hv : s.view? q = some v) :
    ∃ w, (overAll State.loseView ps s).1.view? q = some w ∧ v.LostAs w := by
  induction ps generalizing s with
  | nil => simp at hq
  | cons p ps ih =>
    by_cases hqp : q = p
    · subst hqp
      obtain ⟨w, hw, hlost, hout⟩ := State.loseView_view hv
      exact ⟨w, State.overAll_loseView_stays ps hw hout, hlost⟩
    · exact ih ((List.mem_cons.mp hq).resolve_left hqp) ((State.loseView_other hqp).trans hv)

theorem State.overAll_loseView_rest (ps : List Nat) (s : State) :
    (overAll State.loseView ps s).1.station = s.station ∧ (overAll State.loseView ps s).1.pmon = s.pmon := by
  induction ps generalizing s with
  | nil => exact ⟨rfl, rfl⟩
  | cons p ps ih =>
    obtain ⟨hst, hpm⟩ := s.loseView_rest p
    obtain ⟨hst', hpm'⟩ := ih (s.loseView p).1
    exact ⟨hst'.trans hst, hpm'.trans hpm⟩

/-- A view shared with a peer that is lost (R71). -/
theorem State.peerLost_view {r : Role} {q : Nat} (hv : s.view? q = some v) (hr : v.peerRole = some r) :
    ∃ w, (s.peerLost r).1.view? q = some w ∧ v.LostAs w := by
  refine State.overAll_loseView_view (List.mem_map.mpr ⟨v, List.mem_filter.mpr ⟨List.mem_of_find?_eq_some hv, ?_⟩, State.view?_some_pair hv⟩) hv
  simp [hr]

theorem State.peerLost_rest (s : State) (r : Role) : (s.peerLost r).1.station = s.station ∧ (s.peerLost r).1.pmon = s.pmon :=
  State.overAll_loseView_rest (s.pairsWith r) s

theorem State.peerLost_local (s : State) (r : Role) : AllLocal (s.peerLost r).2 := overAll_local State.loseView_local (s.pairsWith r) s

/-- The claims that fail with their peer (R71, R48). -/
theorem State.mem_loseView_fails {sl : Slot} {x : Nat} (hv : s.view? p = some v) :
    Report.failEntry sl x .peerLost ∈ (s.loseView p).2 ↔
      sl = v.slot ∧ x = v.pair ∧ (s.job v.slot).active = true ∧
        ((s.job v.slot).entryOf v.pair = some .claimed ∧ (v.state = .pending ∨ v.state = .queued ∨ v.state = .peer) ∨
          (s.job v.slot).entryOf v.pair = some .needed ∧ (v.state = .pending ∨ v.state = .queued)) := by
  have hno : ∀ st, Report.failEntry sl x .peerLost ∉ ((s.updView p (fun w => { w with reconcile := 0 })).viewTo p st).2 := fun st hm => by
    have hidle := State.viewTo_idle _ p st _ hm
    simp [Report.isIdle] at hidle
  cases hst : v.state with
  | own | barred | heldA | heldB => simp [State.loseView, hv, hst]
  | ownWait => simp [State.loseView, hv, hst, Effect.andThen, hno]
  | opened | conflict => simp [State.loseView, hv, hst, hno]
  | pending | queued =>
    simp only [State.loseView, hv, hst, Effect.andThen, List.mem_append, hno, false_or, State.mem_entryAmong_fails]
    simp
  | peer =>
    simp only [State.loseView, hv, hst, Effect.andThen, List.mem_append, hno, false_or, State.mem_entryAmong_fails]
    simp

/-! ### The expectancy timer (R66) -/

/-- A record put in the place of the one of its role. -/
theorem State.peer?_setPeer {r : Role} {q : PeerRec} (hq : q.role = r) (x : Role) :
    (s.updPeer r (fun _ => q)).peer? x = (s.peer? x).map (fun p => if p.role = r then q else p) := by
  simp only [State.peer?, State.updPeer, List.find?_map]
  congr 2
  funext u
  simp only [Function.comp_apply]
  split <;> simp_all

/-- The record after the expiry of its expectancy timer: what the last STATUS brought stays. -/
theorem PeerRec.expire_heard (p : PeerRec) :
    p.expire.role = p.role ∧ p.expire.lastSeq = p.lastSeq ∧ p.expire.mode = p.mode ∧ p.expire.missSet = p.missSet ∧
      p.expire.holdSet = p.holdSet ∧ p.expire.intervals = p.intervals ∧ p.expire.forced = p.forced := by
  unfold PeerRec.expire
  split
  · exact ⟨rfl, rfl, rfl, rfl, rfl, rfl, rfl⟩
  · simp only
    split <;> exact ⟨rfl, rfl, rfl, rfl, rfl, rfl, rfl⟩
  · exact ⟨rfl, rfl, rfl, rfl, rfl, rfl, rfl⟩
  · exact ⟨rfl, rfl, rfl, rfl, rfl, rfl, rfl⟩

theorem PeerRec.expire_acquiring {p : PeerRec} (h : p.state = .acquiring) : p.expire = { p with state := p.origin, expectancy := none } := by
  simp [PeerRec.expire, h]

/-- A miss in the window of a PRESENT record (R66, R67). -/
theorem PeerRec.expire_present {p : PeerRec} (h : p.state = .present) (hw : p.window.length = 5) :
    let q := p.expire
    q.window = p.window.drop 1 ++ [.miss] ∧
      (2 ≤ q.window.count .miss → q.state = .lost ∧ q.expectancy = none ∧ q.missesMe = false ∧ q.missesMeCount = 0) ∧
      (q.window.count .miss < 2 →
        q.state = .present ∧ q.expectancy = some (if p.mode = .active then 30 else 150) ∧ q.missesMe = p.missesMe) := by
  have hpush : pushHeard p.window .miss = p.window.drop 1 ++ [.miss] := by
    simp [pushHeard, Config.windowSize, hw, List.drop_append]
  have hcount : ∀ xs, misses xs = xs.count .miss := fun _ => rfl
  have hexpect : expectancyOf p.mode = if p.mode = .active then 30 else 150 := by cases p.mode <;> rfl
  simp only [PeerRec.expire, h, hpush, hcount, hexpect]
  split
  · rename_i hlost
    exact ⟨rfl, fun _ => ⟨rfl, rfl, rfl, rfl⟩, fun hn => absurd hlost (Nat.not_le.mpr hn)⟩
  · rename_i hkeeps
    exact ⟨rfl, fun hn => absurd hn hkeeps, fun _ => ⟨rfl, rfl, rfl⟩⟩

/-! ### A step that takes the loss of a peer -/

/-- A step that takes the loss of a peer first: what follows is local, and leaves the views in the states that the loss brings (R71). -/
theorem settle_peerLost (s : State) (r : Role) {rs : List Report} (h : AllLocal rs) :
    let t := settle (s, .peerLost r :: rs)
    t.station = s.station ∧ t.pmon.peers = s.pmon.peers ∧
      ∀ x v, s.view? x = some v → v.peerRole = some r → ∃ w, t.view? x = some w ∧ v.LostAs w := by
  have hsettle : settle (s, .peerLost r :: rs) = (cascade 999 ((s.peerLost r).2 ++ rs) [] (s.peerLost r).1).takeActivity := rfl
  have hlocal : AllLocal ((s.peerLost r).2 ++ rs) := (AllLocal.append _ _).mpr ⟨s.peerLost_local r, h⟩
  have hkept := cascade_passages 999 hlocal (s.peerLost r).1
  have hown := cascade_ownKept 999 hlocal (s.peerLost r).1
  obtain ⟨hst, hpm⟩ := s.peerLost_rest r
  simp only [hsettle]
  refine ⟨hkept.station.trans hst, hkept.peers.trans (congrArg Pmon.peers hpm), fun x v hv hr => ?_⟩
  obtain ⟨w, hw, hlost⟩ := State.peerLost_view hv hr
  have hp : w.peerRole.isSome = true := by
    have hsame : w.peerRole = v.peerRole := by simp only [View.peerRole, hlost.other]
    rw [hsame, hr]
    rfl
  obtain ⟨y, hy, hslot, -, hother, hsettles, -⟩ := hkept.views x w hw hp
  have hstays : w.state = .own → y.state = .own ∧ y.waiter = w.waiter := fun hs => by
    obtain ⟨z, hz, -, hzs, hzw⟩ := hown x w hw hp hs
    obtain rfl : y = z := Option.some.inj (hy.symm.trans hz)
    exact ⟨hzs, hzw⟩
  refine ⟨y, hy, hslot.trans hlost.slot, hother.trans hlost.other, fun hs => ?_, fun hs => ?_, fun hs => ?_⟩
  · obtain ⟨hws, hww⟩ := hlost.own hs
    obtain ⟨hys, hyw⟩ := hstays hws
    exact ⟨hys, hyw.trans hww⟩
  · obtain ⟨hws, hww⟩ := hlost.ownWait hs
    obtain ⟨hys, hyw⟩ := hstays hws
    exact ⟨hys, hyw.trans hww⟩
  · have hbarred := hlost.barred hs
    simpa [ViewState.settlesAs, hbarred] using hsettles

theorem unheardReports_local (was now : Bool) : AllLocal (unheardReports was now) := by
  unfold unheardReports
  repeat' split
  all_goals simp [Report.isLocal]

/-- The step that takes an expiry's record `q` in the place of `p`: the record stands in it, and no station is left or entered. -/
theorem State.setPeer_settles {r : Role} {p q : PeerRec} (hp : s.peer? r = some p) (hq : q.role = r) {rs : List Report}
    (hst : (settle (s.updPeer r (fun _ => q), rs)).station = s.station)
    (hpeers : (settle (s.updPeer r (fun _ => q), rs)).pmon.peers = (s.updPeer r (fun _ => q)).pmon.peers) :
    let t := settle (s.updPeer r (fun _ => q), rs)
    t.peer? r = some q ∧ SameAround s t ∧ t.station = s.station ∧ ∀ x, x ≠ r → t.peer? x = s.peer? x := by
  intro t
  have hpeer : ∀ x, t.peer? x = (s.peer? x).map (fun y => if y.role = r then q else y) := fun x => by
    rw [← State.peer?_setPeer hq x, State.peer?, State.peer?]
    exact congrArg _ hpeers
  refine ⟨?_, ?_, hst, fun x hx => ?_⟩
  · rw [hpeer, hp, Option.map_some, if_pos (State.peer?_role hp)]
  · refine SameAround.trans ?_ (settle_around _)
    exact ⟨rfl, rfl, rfl, rfl, rfl, rfl, rfl, rfl, rfl, rfl, rfl, rfl, rfl, rfl, rfl, rfl, fun _ => rfl⟩
  · rw [hpeer]
    cases hy : s.peer? x with
    | none => rfl
    | some y => rw [Option.map_some, if_neg (by rw [State.peer?_role hy]; exact hx)]

/-- An expiry that runs comes of an ACQUIRING or a PRESENT record, and none brings a record into PRESENT (R66). -/
theorem PeerRec.expire_reports {p : PeerRec} (hs : p.sound) (he : p.expectancy.isSome = true) (s : State) (r : Role) :
    s.presenceReports r p.state p.expire.state =
      if s.station = .run ∧ p.state = .present ∧ p.expire.state = .lost then [.peerLost r] else [] := by
  obtain ⟨-, -, -, horigin, hstopped⟩ := hs
  cases hst : p.state with
  | absent => simp [hstopped (.inl hst)] at he
  | lost => simp [hstopped (.inr hst)] at he
  | acquiring =>
    rw [PeerRec.expire_acquiring hst]
    rcases horigin with ho | ho <;> simp [State.presenceReports, ho]
  | present =>
    by_cases hl : p.expire.state = .lost <;> by_cases hrun : s.station = .run <;> simp [State.presenceReports, hl, hrun]

theorem State.withSense_around (s : State) (n : Nat) : SameAround s (s.withSense n) :=
  ⟨rfl, rfl, rfl, rfl, rfl, rfl, rfl, rfl, rfl, rfl, rfl, rfl, rfl, rfl, rfl, rfl, fun _ => rfl⟩

/-- The station at the expiry of a record's timer, before its reports are answered (R66). -/
def State.expired (s : State) (n : Nat) (r : Role) (p : PeerRec) : State := (s.withSense n).updPeer r (fun _ => p.expire)

/-- The step of an expectancy timer that runs (R66): the record expires, and the views shared with a peer that is lost by it are
those that the loss leaves. -/
theorem State.expectancyExpiry_spec {r : Role} {p : PeerRec} (n : Nat) (hp : s.peer? r = some p) (he : p.expectancy.isSome = true)
    (htaking : s.station = .sync ∨ s.station = .run) (hsound : s.PeersSound) :
    ∃ t, exec (.expectancyTimerExpiry r n) s = .next t ∧ t.peer? r = some p.expire ∧ SameAround s t ∧ t.station = s.station ∧
      (∀ x, x ≠ r → t.peer? x = s.peer? x) ∧
      (s.station = .run → p.state = .present → p.expire.state = .lost → ∀ x v, s.view? x = some v → v.peerRole = some r →
        ∃ w, t.view? x = some w ∧ v.LostAs w) := by
  have hrole : p.expire.role = r := p.expire_heard.1.trans (State.peer?_role hp)
  have hps : p.sound := hsound p (List.mem_of_find?_eq_some hp)
  have hexec : exec (.expectancyTimerExpiry r n) s =
      .next (settle (s.expired n r p, (if s.station = .run ∧ p.state = .present ∧ p.expire.state = .lost then [.peerLost r] else []) ++
        unheardReports s.unheard (s.expired n r p).unheard)) := by
    have hgo : p.expectancy.isSome = true ∧ s.taking = true := ⟨he, by simpa [State.taking] using htaking⟩
    simp only [exec, execExpectancyTimerExpiry, hp]
    rw [if_pos hgo, PeerRec.expire_reports hps he]
    rfl
  have hpeer : (s.withSense n).peer? r = some p := hp
  have hlocal := unheardReports_local s.unheard (s.expired n r p).unheard
  by_cases hlost : s.station = .run ∧ p.state = .present ∧ p.expire.state = .lost
  · rw [if_pos hlost] at hexec
    obtain ⟨hst, hpeers, hviews⟩ := settle_peerLost (s.expired n r p) r hlocal
    obtain ⟨h1, h2, h3, h4⟩ := State.setPeer_settles hpeer hrole hst hpeers
    exact ⟨_, hexec, h1, (s.withSense_around n).trans h2, h3, h4, fun _ _ _ => hviews⟩
  · rw [if_neg hlost, List.nil_append] at hexec
    have hkept := settle_passages (e := (s.expired n r p, unheardReports s.unheard (s.expired n r p).unheard)) hlocal
    obtain ⟨h1, h2, h3, h4⟩ := State.setPeer_settles hpeer hrole hkept.station hkept.peers
    exact ⟨_, hexec, h1, (s.withSense_around n).trans h2, h3, h4, fun hrun hpr hl => absurd ⟨hrun, hpr, hl⟩ hlost⟩

/-- Settles O21: an expiry reports the loss of its peer first and local reports behind it, and a BARRED view derived moves no
envelope that stands as last built. -/
theorem expectancyExpiry : Obligations.ExpectancyExpiry := by
  refine ⟨?_, ?_, ?_⟩
  · intro s r n p hp he htaking hsound
    obtain ⟨t, hexec, hq, haround, hst, hothers, hviews⟩ := State.expectancyExpiry_spec n hp he htaking hsound
    obtain ⟨-, h1, h2, h3, h4, h5, h6⟩ := p.expire_heard
    refine ⟨t, p.expire, hexec, hq, haround, hst, hothers, h1, h2, h3, h4, h5, h6, PeerRec.expire_acquiring, PeerRec.expire_present, ?_⟩
    intro hrun hpr hl x v hv hr
    obtain ⟨w, hw, hlost⟩ := hviews hrun hpr hl x v hv hr
    exact ⟨w, hw, hlost.slot, hlost.other, hlost.own, hlost.ownWait, hlost.barred⟩
  · exact fun s p v sl x hv _ => State.mem_loseView_fails hv
  · intro s r hpr hn henv t p v hv
    have hbuilt : s.Built := ⟨hn, henv⟩
    refine ⟨fun hnot => ?_, fun hr hst => State.peerReturned_view hpr hbuilt hv hr hst⟩
    refine ((State.peerReturned_derives hbuilt).others p fun hmem => ?_).trans hv
    obtain ⟨hr, hst⟩ := (State.mem_barredWith hn hv).mp hmem
    exact hnot.elim (fun h => h hr) (fun h => h hst)

end Sys2Proof.Machine
end

section
/-! PROOFS. Rules of the peer monitor that its statements share: what the gateway record's load answers, and what a record is after a
STATUS. -/

namespace Sys2Proof.Machine

variable {s t : State}

/-! ### The gateway record (R82, R83) -/

/-- The station with the gateway record loaded; a change of speed class is an activity event (R82, R140). -/
def State.gatewayLoaded (s : State) (g : Gateway) : State :=
  if s.pmon.gateway.speed = g.speed then { s with pmon := { s.pmon with gateway := g } }
  else State.noteActivity { s with pmon := { s.pmon with gateway := g } }

/-- The record loaded, and where its speed class, park or known changes, what the MVC and the CLU are told (R21, R84, R126). -/
theorem State.gatewayTo_eq (s : State) (g : Gateway) :
    s.gatewayTo g =
      if s.pmon.gateway.speed = g.speed ∧ s.pmon.gateway.park = g.park ∧ s.pmon.gateway.known = g.known then (s.gatewayLoaded g, [])
      else
        ((s.gatewayLoaded g).endVehicle.1, s.axisSlots.map Report.envelope ++ (s.gatewayLoaded g).endVehicle.2) := rfl

theorem State.endVehicle_evolves {loose : Prop} (s : State) : Evolves loose s s.endVehicle.1 := State.endWhere_evolves s _ _ _

theorem State.gatewayLoaded_evolves {loose : Prop} (s : State) (g : Gateway) :
    Evolves loose { s with pmon := { s.pmon with gateway := g } } (s.gatewayLoaded g) := by
  unfold State.gatewayLoaded
  split
  · exact .refl _
  · exact .activity _

/-- Beyond the record itself, its load is made of the updates of `Evolves`. -/
theorem State.gatewayTo_evolves {loose : Prop} (s : State) (g : Gateway) :
    Evolves loose { s with pmon := { s.pmon with gateway := g } } (s.gatewayTo g).1 := by
  rw [State.gatewayTo_eq]
  split
  · exact s.gatewayLoaded_evolves g
  · exact (s.gatewayLoaded_evolves g).trans (State.endVehicle_evolves _)

end Sys2Proof.Machine
end

section
/-! PROOFS. O59: every command keeps the queues within their capacities and the peer records in bounds. -/

namespace Sys2Proof.Machine

variable {s t u : State}

/-! ### The slot window, and the record it decides (R66, R67, R69) -/

theorem pushHeard_bounded {w : List Heard} (hw : w.length ≤ Config.windowSize) (h : Heard) :
    (pushHeard w h).length ≤ Config.windowSize := by
  unfold pushHeard
  simp only
  split
  · simpa using hw
  · rename_i hn
    exact Nat.le_of_not_gt hn

/-- A PRESENT record whose window has become `w` stays PRESENT below two misses, and is LOST with them. -/
theorem PeerRec.windowed_sound {p : PeerRec} (h : p.sound) (hst : p.state = .present) {w : List Heard}
    (hw : w.length ≤ Config.windowSize) (n : Nat) (x : Timer) :
    let q := { p with window := w, lastSeq := n, expectancy := x }
    (if misses w ≥ 2 then q.lose else q).sound := by
  obtain ⟨-, -, hm, ho, -⟩ := h
  simp only
  split
  · exact ⟨hw, fun h => by simp [PeerRec.lose] at h, Nat.zero_le 1, ho, fun _ => rfl⟩
  · rename_i hfew
    exact ⟨hw, fun _ => Nat.lt_of_not_ge hfew, hm, ho, fun h => by simp [hst] at h⟩

theorem PeerRec.hear_sound {p : PeerRec} (h : p.sound) (seq : Nat) (mode : Mode) : (p.hear seq mode).sound := by
  have ⟨hw, _, hm, ho, _⟩ := h
  cases hst : p.state with
  | absent =>
    simp only [PeerRec.hear, hst]
    exact ⟨hw, by simp, hm, .inl rfl, by simp⟩
  | lost =>
    simp only [PeerRec.hear, hst]
    exact ⟨hw, by simp, hm, .inr rfl, by simp⟩
  | acquiring =>
    simp only [PeerRec.hear, hst]
    split
    · exact ⟨le_rfl, fun _ => show misses (List.replicate Config.windowSize .hit) < 2 by decide, hm, ho, by simp⟩
    · exact ⟨hw, by simp, hm, ho, by simp⟩
  | present =>
    simp only [PeerRec.hear, hst]
    have hmissed : (if seq == (p.lastSeq + 1) % 16 then p.window else pushHeard p.window .miss).length ≤ Config.windowSize := by
      split
      · exact hw
      · exact pushHeard_bounded hw _
    simpa only [hst] using PeerRec.windowed_sound h hst (pushHeard_bounded hmissed .hit) seq (some (expectancyOf mode))

theorem PeerRec.expire_sound {p : PeerRec} (h : p.sound) : p.expire.sound := by
  have ⟨hw, _, hm, ho, _⟩ := h
  cases hst : p.state with
  | absent | lost => simpa only [PeerRec.expire, hst] using h
  | acquiring =>
    rw [PeerRec.expire_acquiring hst]
    refine ⟨hw, fun hp => ?_, hm, ho, fun _ => rfl⟩
    rcases ho with ho | ho <;> simp [ho] at hp
  | present =>
    simp only [PeerRec.expire, hst]
    simpa only [hst] using PeerRec.windowed_sound h hst (pushHeard_bounded hw .miss) p.lastSeq (some (expectancyOf p.mode))

/-- A record put in the place of those of a role is sound where it is itself. -/
theorem State.PeersSound.setPeer (h : s.PeersSound) {q : PeerRec} (hq : q.sound) (r : Role) :
    (s.updPeer r (fun _ => q)).PeersSound := by
  intro p hp
  obtain ⟨x, hx, rfl⟩ := List.mem_map.mp hp
  split
  · exact hq
  · exact h x hx

theorem State.PeersSound.of_peer? (h : s.PeersSound) {r : Role} {p : PeerRec} (hp : s.peer? r = some p) : p.sound :=
  h p (List.mem_of_find?_eq_some hp)

/-! ### Updates that keep the bounds -/

/-- The capacities of the queues and the bounds of the peer records. -/
def State.Bounded (s : State) : Prop := s.BusBounded ∧ s.PeersSound

/-- An update under which a station within its bounds stays so. -/
def KeepsBounds (s t : State) : Prop := s.Bounded → t.Bounded

theorem KeepsBounds.trans (h : KeepsBounds s t) (k : KeepsBounds t u) : KeepsBounds s u := k ∘ h

theorem KeepsBounds.refl (s : State) : KeepsBounds s s := id

/-- An update that leaves the outgoing list and the peer records as they were, and the interface within its capacities. -/
theorem KeepsBounds.of_bounded (hb : s.bus.bounded → t.bus.bounded) (ho : t.mvc.outgoing = s.mvc.outgoing)
    (hp : t.pmon.peers = s.pmon.peers) : KeepsBounds s t := by
  rintro ⟨⟨hbus, hout⟩, hpeers⟩
  exact ⟨⟨hb hbus, ho ▸ hout⟩, fun p hm => hpeers p (hp ▸ hm)⟩

/-- An update that concerns neither the queues nor the peer records. -/
theorem KeepsBounds.of_same (hb : t.bus = s.bus) (ho : t.mvc.outgoing = s.mvc.outgoing) (hp : t.pmon.peers = s.pmon.peers) :
    KeepsBounds s t := .of_bounded (fun h => hb ▸ h) ho hp

theorem Evolves.keepsBounds (h : Evolves True s t) : KeepsBounds s t := fun hs => ⟨h.busBounded hs.1, h.peersSound hs.2⟩

theorem State.clash_keepsBounds (s : State) : KeepsBounds s s.clash := by
  unfold State.clash
  split
  · rintro ⟨⟨⟨hrx, -, -⟩, -⟩, hpeers⟩
    refine ⟨⟨⟨hrx, Nat.zero_le _, fun h => Bool.noConfusion h⟩, Nat.zero_le _⟩, fun p hm => ?_⟩
    obtain ⟨q, hq, rfl⟩ := List.mem_map.mp hm
    obtain ⟨h1, h2, h3, h4, -⟩ := hpeers q hq
    exact ⟨h1, h2, h3, h4, fun _ => rfl⟩
  · exact .of_same rfl rfl rfl

theorem State.popRx_keepsBounds (s : State) : KeepsBounds s s.popRx := by
  refine .of_bounded (fun ⟨hrx, hgen, hatt⟩ => ?_) rfl rfl
  have hshorter : s.popRx.bus.rx.length ≤ s.bus.rx.length := List.Sublist.length_le (List.drop_sublist 1 _)
  exact ⟨hshorter.trans hrx, hgen, fun h => hshorter.trans_lt (hatt h)⟩

theorem keepsBounds_carried : Carried KeepsBounds where
  trans := KeepsBounds.trans
  evolves := Evolves.keepsBounds
  popped := State.popRx_keepsBounds
  clashed := State.clash_keepsBounds

/-! ### The first part of each command -/

theorem State.statusFrame_keepsBounds (s : State) (f : Frame) (echo : Bool) : KeepsBounds s (s.statusFrame f echo).1 := by
  unfold State.statusFrame State.applyStatus
  split
  · split
    · exact .refl s
    · split
      · exact .refl s
      · rename_i c r _ _ _ _ p hp
        have hput : KeepsBounds s (s.updPeer r (fun _ => (p.hear c.seq c.mode).load c)) := fun hs =>
          ⟨hs.1, hs.2.setPeer (q := (p.hear c.seq c.mode).load c) (PeerRec.hear_sound (hs.2.of_peer? hp) c.seq c.mode) r⟩
        simp only
        split
        · exact hput.trans (Evolves.activity _).keepsBounds
        · exact hput
  · exact .refl s

theorem State.gatewayTo_keepsBounds (s : State) (g : Gateway) : KeepsBounds s (s.gatewayTo g).1 := by
  have hput : KeepsBounds s { s with pmon := { s.pmon with gateway := g } } := .of_same rfl rfl rfl
  exact hput.trans (s.gatewayTo_evolves g).keepsBounds

theorem State.vehicleFrame_keepsBounds (s : State) (f : Frame) : KeepsBounds s (s.vehicleFrame f).1 := by
  unfold State.vehicleFrame
  split
  · split
    · exact s.gatewayTo_keepsBounds _
    · exact .refl s
  · exact .refl s

theorem State.waitExpired_keepsBounds (s : State) (v : View) : KeepsBounds s (s.waitExpired v).1 := by
  rw [State.waitExpired_fst]
  exact .of_same rfl rfl rfl

theorem State.pulse_keepsBounds (s : State) (sl : Slot) : KeepsBounds s (s.pulse sl).1 := by
  have hcount : KeepsBounds s (s.countPulse sl) := by
    rw [State.countPulse_eq]
    split <;> exact .of_same rfl rfl rfl
  refine hcount.trans (Evolves.keepsBounds ?_)
  unfold State.pulse
  simp only
  split
  · exact .rebuilt _ sl
  · exact (State.markPassed_evolves _ sl).trans (.rebuilt _ sl)

theorem State.learnHome_keepsBounds (s : State) (sl : Slot) : KeepsBounds s (s.learnHome sl) := by
  unfold State.learnHome
  simp only
  split <;> exact .of_same rfl rfl rfl

theorem State.stall_keepsBounds (s : State) (sl : Slot) : KeepsBounds s (s.stall sl).1 := by
  have hoff (t : State) (a : AfterBrake) : KeepsBounds t (t.driveOff sl a) := .of_same rfl rfl rfl
  unfold State.stall
  simp only
  split
  · exact hoff s _
  · split
    case h_4 => exact (State.rest_evolves s sl .fault none (by decide)).keepsBounds
    case h_6 =>
      split
      · exact hoff s _
      · exact (s.learnHome_keepsBounds sl).trans (hoff _ _)
    all_goals exact .of_same rfl rfl rfl

theorem State.stallExpiry_keepsBounds (s : State) (sl : Slot) : KeepsBounds s (s.stallExpiry sl).1 := by
  unfold State.stallExpiry
  simp only
  split
  · split
    · exact .of_same rfl rfl rfl
    · exact s.stall_keepsBounds sl
  · exact .refl s

theorem State.blankingExpiry_keepsBounds (s : State) (sl : Slot) : KeepsBounds s (s.blankingExpiry sl).1 := by
  have hput : KeepsBounds s (s.setDrive sl { s.drive sl with blankingTimer := none }) := .of_same rfl rfl rfl
  unfold State.blankingExpiry
  simp only
  split
  · split
    · exact hput.trans (State.stall_keepsBounds _ sl)
    · exact hput
  · exact .refl s

theorem State.jobExpiry_keepsBounds (s : State) (sl : Slot) : KeepsBounds s (s.jobExpiry sl).1 := by
  refine Evolves.keepsBounds ?_
  unfold State.jobExpiry
  simp only
  split
  · split
    · split
      · exact State.rest_evolves s sl .fault none (by decide)
      · exact State.driveOff_evolves s sl _
    · exact State.driveOff_evolves s sl _
  · exact .refl s

theorem State.brakeExpiry_keepsBounds (s : State) (sl : Slot) : KeepsBounds s (s.brakeExpiry sl).1 := by
  unfold State.brakeExpiry
  simp only
  split
  · refine KeepsBounds.trans (t := s.setDrive sl { s.drive sl with brakeTimer := none }) (.of_same rfl rfl rfl) ?_
    generalize s.setDrive sl { s.drive sl with brakeTimer := none } = t
    have hended : KeepsBounds t (t.setDrive sl { t.drive sl with run := none, afterBrake := .idle }) := .of_same rfl rfl rfl
    have hwaits : KeepsBounds t (t.beginWaiting sl).1 := (State.beginWaiting_evolves t sl).keepsBounds
    have htest : ∀ r, KeepsBounds t (t.testRun sl r).1 := fun r => (State.testRun_evolves t sl r).keepsBounds
    have hends : ∀ {c : Prop} [Decidable c] (e : RunEnd) (rs : List Report), KeepsBounds t
        (if c then (t.setDrive sl { t.drive sl with run := none, afterBrake := .idle }, rs) else t.endRun sl e).1 := fun e rs => by
      split
      · exact hended
      · exact (State.endRun_evolves t sl e).keepsBounds
    split
    · exact (State.beginRelief_evolves t sl).keepsBounds
    · exact htest _
    · split
      · exact hwaits
      · exact htest _
    · split
      · exact hwaits
      · exact htest _
    · exact hends _ _
    · exact hends _ _
    · exact hends _ _
    · split
      · exact hwaits
      · exact (State.rest_evolves t sl .idle none (by decide)).keepsBounds
  · exact .refl s

theorem State.switchesTaken_keepsBounds (s : State) (pins : SwitchPins) : KeepsBounds s (s.switchesTaken pins) := by
  have hliu : KeepsBounds s { s with liu := s.liu.sampleSwitches pins } := .of_same rfl rfl rfl
  have hnoted : KeepsBounds s
      (if s.liu.switchChanged (s.liu.sampleSwitches pins) then State.noteActivity { s with liu := s.liu.sampleSwitches pins }
       else { s with liu := s.liu.sampleSwitches pins }) := by
    split
    · exact hliu.trans (Evolves.activity _).keepsBounds
    · exact hliu
  unfold State.switchesTaken
  simp only
  split
  · exact hnoted.trans (State.onePress_evolves _).keepsBounds
  · exact hnoted

theorem State.sampleSwitches_keepsBounds (s : State) (pins : SwitchPins) : KeepsBounds s (s.sampleSwitches pins).1 := by
  obtain ⟨_, hj⟩ := (s.switchesTaken pins).jogChanges_eq (s.liu.sampleSwitches pins)
  refine (s.switchesTaken_keepsBounds pins).trans ?_
  rw [State.sampleSwitches_eq, hj]
  exact .of_same rfl rfl rfl

theorem State.sampleOccupancy_keepsBounds (s : State) (pins : OccupancyPins) : KeepsBounds s (s.sampleOccupancy pins).1 := by
  have hact {t : State} (h : KeepsBounds s t) : KeepsBounds s t.noteActivity := h.trans (Evolves.activity t).keepsBounds
  have hend {t : State} (h : KeepsBounds s t) : KeepsBounds s t.endOccupied.1 :=
    h.trans (State.endWhere_evolves t _ _ _).keepsBounds
  unfold State.sampleOccupancy
  simp only
  split
  · exact .of_same rfl rfl rfl
  · split
    · exact hend (hact (.of_same rfl rfl rfl))
    · exact hact (.of_same rfl rfl rfl)

/-! ### The events of the bus interface -/

/-- A frame received, or an echo, enters a queue that has room for it. -/
theorem Bif.bounded.received {b : Bif} (h : b.bounded) (hroom : b.rx.length < Config.rxCapacity) (hatt : b.attempt = none)
    (x : RxFrame) : ({ b with rx := b.rx ++ [x] } : Bif).bounded :=
  ⟨by simpa using hroom, h.2.1, fun hsome => by simp [hatt] at hsome⟩

/-- The end of an attempt, completed or not, takes no frame into the receive queue. -/
theorem Bif.bounded.attemptEnds {b : Bif} (h : b.bounded) (n : Nat) : ({ b.attemptEnds with errors := n } : Bif).bounded :=
  ⟨h.1, h.2.1, fun hsome => Bool.noConfusion hsome⟩

theorem Bif.bounded.completed {b : Bif} (h : b.bounded) {f : Frame} (hatt : b.attempt = some f) (n : Nat) :
    ({ b.completed f with rx := b.rx ++ [⟨f, true⟩], errors := n } : Bif).bounded := by
  obtain ⟨-, hgen, hroom⟩ := h
  have hless : b.rx.length < Config.rxCapacity := hroom (by simp [hatt])
  have hlen : (b.rx ++ [(⟨f, true⟩ : RxFrame)]).length ≤ Config.rxCapacity := by simpa using hless
  unfold Bif.completed
  split
  · exact ⟨hlen, hgen, fun hsome => Bool.noConfusion hsome⟩
  · exact ⟨hlen, (List.erase_sublist.length_le).trans hgen, fun hsome => Bool.noConfusion hsome⟩

theorem State.markForced_keepsBounds (s : State) : KeepsBounds s s.markForced := fun hs =>
  ⟨hs.1, fun p hm => by
    obtain ⟨q, hq, rfl⟩ := List.mem_map.mp hm
    exact hs.2 q hq⟩

theorem State.rejoined_keepsBounds (s : State) : KeepsBounds s s.rejoined :=
  .trans (.trans (t := s.setBus { s.bus with busOff := none, errors := 0 }) (.of_bounded id rfl rfl)
    (State.markForced_keepsBounds _)) (.of_same rfl rfl rfl)

theorem State.sendStatus_keepsBounds (s : State) : KeepsBounds s s.sendStatus := by
  obtain ⟨hrx, hatt, -, -, hgen⟩ := s.bus.placeStatus_rest (encode s.sender (.status s.statusContent))
  refine .of_bounded (fun ⟨h1, h2, h3⟩ => ⟨?_, ?_, ?_⟩) rfl rfl
  · exact (congrArg List.length hrx).trans_le h1
  · exact (congrArg List.length hgen).trans_le h2
  · intro hsome
    exact (congrArg List.length hrx).trans_lt (h3 (hatt ▸ hsome))

theorem execFrameReceived_keepsBounds (f : BusFrame) (s : State) (ht : execFrameReceived f s = .next t) : KeepsBounds s t := by
  unfold execFrameReceived at ht
  split at ht
  · rename_i hgo
    split at ht
    · rename_i hroom
      cases ht
      exact .of_bounded (fun h => h.received hroom hgo.2.1 _) rfl rfl
    · split at ht
      · cases ht
        exact .refl _
      · cases ht
        exact State.markForced_keepsBounds _
  · cases ht
    exact .refl _

theorem newPeer_sound (r : Role) : (newPeer r).sound := ⟨Nat.zero_le _, by simp [newPeer], Nat.zero_le _, .inl rfl, fun _ => rfl⟩

/-- While reset is held, and as START begins, the queues are empty (R161, R163). -/
theorem Bif.bounded.of_empty {b : Bif} (hr : b.rx = []) (hg : b.general = []) (ha : b.attempt = none) : b.bounded := by
  refine ⟨?_, ?_, ?_⟩ <;> simp [hr, hg, ha]

theorem State.underReset_bounded (x : Rcs) (q : List Instr) : (State.underReset x q).Bounded :=
  ⟨⟨.of_empty rfl rfl rfl, Nat.zero_le _⟩, fun _ hm => by cases hm⟩

theorem State.started_bounded (s : State) (r : Role) (sw : SwitchPins) (oc : OccupancyPins) : (s.started r sw oc).Bounded :=
  ⟨⟨.of_empty rfl rfl rfl, Nat.zero_le _⟩, fun _ hm => by
    obtain ⟨x, -, rfl⟩ := List.mem_map.mp hm
    exact newPeer_sound x⟩

/-! ### Every command -/

/-- A command that answers a state within its bounds, where the station was. -/
def EndsBounded (s : State) (o : Host.Outcome State Fault Refusal) : Prop := ∀ t, o = .next t → KeepsBounds s t

theorem EndsBounded.next (h : KeepsBounds s t) : EndsBounded s (.next t) := fun _ hu => by cases hu; exact h

theorem EndsBounded.stay (s : State) : EndsBounded s (.next s) := .next (.refl s)

/-- A command that concerns neither the queues nor the peer records. -/
theorem EndsBounded.direct (hb : t.bus = s.bus) (ho : t.mvc.outgoing = s.mvc.outgoing) (hp : t.pmon.peers = s.pmon.peers) :
    EndsBounded s (.next t) := .next (.of_same hb ho hp)

/-- A command whose step is carried to its end. -/
theorem EndsBounded.settled {e : Effect} (h : KeepsBounds s e.1) : EndsBounded s (.next (settle e)) :=
  .next (h.trans (settle_evolves e (.inl trivial)).keepsBounds)

/-- A command that acts where its event can happen, and changes nothing elsewhere. -/
theorem EndsBounded.ite {P : Prop} [Decidable P] {o : Host.Outcome State Fault Refusal} (h : P → EndsBounded s o) :
    EndsBounded s (if P then o else .next s) := by
  split
  · rename_i hP
    exact h hP
  · exact .stay s

theorem execResetRelease_bounded (a : StrapPins) (v : Nat) (b : SwitchPins) (o : OccupancyPins) (s : State) :
    EndsBounded s (execResetRelease a v b o s) := by
  refine .ite fun _ => ?_
  split
  · exact .next fun _ => State.underReset_bounded s.rcs s.pending
  · rename_i r _
    exact .settled fun _ => (State.takeSample_evolves ((s.started r b o).withSense v) _).keepsBounds (s.started_bounded r b o)

theorem exec_keepsBounds (c : Instr) (s : State) : EndsBounded s (exec c s) := by
  have hK := keepsBounds_carried
  cases c with
  | resetRelease a v b o => exact execResetRelease_bounded a v b o s
  | resetAssertion => exact .next fun _ => State.underReset_bounded _ _
  | syncEntry =>
    refine .ite fun _ => .next (.trans ?_ (State.sendStatus_keepsBounds _))
    exact .of_bounded (fun _ => .of_empty rfl rfl rfl) rfl rfl
  | syncTimerExpiry => exact .ite fun _ => .settled (State.syncExit_evolves s trivial).keepsBounds
  | ownClaimEcho v => exact .settled (hK.takeEcho (s.withSense v) _ _ _ State.ownClaim_evolves)
  | peerClaim v =>
    refine .settled (hK.takePeer (s.withSense v) _ _ fun t w f => ?_)
    split
    · exact t.peerClaimed_evolves w _
    · exact .refl t
  | ownCedeEcho v => exact .settled (hK.takeEcho (s.withSense v) _ _ _ State.ownCede_evolves)
  | peerCede v => exact .settled (hK.takePeer (s.withSense v) _ _ fun t w _ => t.peerCeded_evolves w)
  | ownDeclineEcho v => exact .settled (hK.takeEcho (s.withSense v) _ _ _ State.ownDecline_evolves)
  | peerDecline v =>
    refine .settled (hK.takePeer (s.withSense v) _ _ fun t w f => ?_)
    split
    · exact t.peerDeclined_evolves w _
    · exact .refl t
  | ownStakeEcho v => exact .settled (hK.takeEcho (s.withSense v) _ _ _ State.ownStake_evolves)
  | peerStake v => exact .settled (hK.takePeer (s.withSense v) _ _ fun t w _ => t.peerStaked_evolves w)
  | statusTaken v => exact .settled (hK.take (s.withSense v) _ _ _ fun t f b => t.statusFrame_keepsBounds f b)
  | vehicleTaken v => exact .settled (hK.take (s.withSense v) _ _ _ fun t f _ => t.vehicleFrame_keepsBounds f)
  | sceneTaken v => exact .settled (hK.take (s.withSense v) _ _ _ fun t f _ => (t.sceneFrame_evolves f).keepsBounds)
  | stopTaken v => exact .settled (hK.take (s.withSense v) _ _ _ fun t f _ => (t.stopFrame_evolves f).keepsBounds)
  | learnTaken v => exact .settled (hK.take (s.withSense v) _ _ _ fun t f _ => (t.learnFrame_evolves f).keepsBounds)
  | resultTaken => exact .settled (hK.take s _ _ _ fun t _ _ => .refl t)
  | frameReceived f => exact fun t ht => execFrameReceived_keepsBounds f s ht
  | transmissionAttempt =>
    refine .ite fun hgo => .next (.of_bounded (fun h => ?_) rfl rfl)
    exact ⟨h.1, h.2.1, fun _ => hgo.2.2⟩
  | arbitrationLost => exact .ite fun _ => .next (.of_bounded (fun h => h.attemptEnds _) rfl rfl)
  | attemptError noAck =>
    refine .ite fun _ => ?_
    simp only
    split
    · exact .next (.of_bounded (fun _ => .of_empty rfl rfl rfl) rfl rfl)
    · exact .next (.of_bounded (fun h => h.attemptEnds _) rfl rfl)
  | frameCompleted =>
    show EndsBounded s (execFrameCompleted s)
    unfold execFrameCompleted
    split
    · exact .stay s
    · rename_i f hatt
      exact .next (.of_bounded (fun h => h.completed hatt _) rfl rfl)
  | busOffTimerExpiry v =>
    refine .ite fun _ => .next (.trans ?_ (State.assignSlots_evolves _ _).keepsBounds)
    exact (State.rejoined_keepsBounds (s.withSense v)).trans
      (settle_evolves ((s.withSense v).rejoined, s.rejoinReports) (.inl trivial)).keepsBounds
  | generalSlotAssignment => exact .next (State.assignSlot_evolves s).keepsBounds
  | statusTimerExpiry => exact .ite fun _ => .next s.sendStatus_keepsBounds
  | expectancyTimerExpiry peer v =>
    show EndsBounded s (execExpectancyTimerExpiry peer v s)
    unfold execExpectancyTimerExpiry
    split
    · exact .stay s
    · rename_i p hp
      exact .ite fun _ => .settled fun hs => ⟨hs.1, hs.2.setPeer (PeerRec.expire_sound (hs.2.of_peer? hp)) peer⟩
  | clashWindowExpiry => exact .ite fun _ => .direct rfl rfl rfl
  | holdTimerExpiry v => exact .ite fun _ => .settled ((s.withSense v).gatewayTo_keepsBounds _)
  | waitTimerExpiry pair v =>
    show EndsBounded s (execWaitTimerExpiry pair v s)
    unfold execWaitTimerExpiry
    split
    · exact .stay s
    · exact .ite fun _ => .settled ((s.withSense v).waitExpired_keepsBounds _)
  | controlInterval v => exact .ite fun _ => .settled (.of_same rfl rfl rfl)
  | hallPulse sl v => exact .ite fun _ => .settled ((s.withSense v).pulse_keepsBounds sl)
  | brakeTimerExpiry sl v => exact .settled ((s.withSense v).brakeExpiry_keepsBounds sl)
  | stallTimerExpiry sl v => exact .settled ((s.withSense v).stallExpiry_keepsBounds sl)
  | blankingTimerExpiry sl v => exact .settled ((s.withSense v).blankingExpiry_keepsBounds sl)
  | jobTimerExpiry sl v => exact .settled ((s.withSense v).jobExpiry_keepsBounds sl)
  | calibrationWriteCompletion sl v =>
    show EndsBounded s (execCalibrationWriteCompletion sl v s)
    unfold execCalibrationWriteCompletion
    split
    · exact .stay s
    · exact .settled (.of_same rfl rfl rfl)
  | quietTimerExpiry =>
    refine .ite fun _ => ?_
    split <;> exact .direct rfl rfl rfl
  | sampleTimerExpiry v => exact .ite fun _ => .settled (State.takeSample_evolves (s.withSense v) _).keepsBounds
  | switchSample pins v => exact .ite fun _ => .settled ((s.withSense v).sampleSwitches_keepsBounds pins)
  | occupancySample pins v => exact .ite fun _ => .settled ((s.withSense v).sampleOccupancy_keepsBounds pins)
  | alwaysOnSupplyLoss => exact .direct rfl rfl rfl

/-- Settles O59: the first part of each command keeps the capacities and the records' bounds, and every report of its step does
(`Evolves.busBounded`, `Evolves.peersSound`). -/
theorem stepKeepsQueuesAndPeers : Obligations.StepKeepsQueuesAndPeers := by
  intro s t hs ht
  rw [step] at ht
  split at ht
  · cases ht
    exact hs
  · exact exec_keepsBounds _ _ t ht hs

end Sys2Proof.Machine
end

section
/-! PROOFS. O20: the record of a STATUS's sender through the step that takes it, and a shared view compared with the sender's hold
set. -/

namespace Sys2Proof.Machine

variable {s t u : State} {p : Nat} {v : View}

/-! ### The record of a STATUS's sender (R65 to R69) -/

/-- What a STATUS leaves of its sender's record `p`, in terms of the presence it finds (R65 step 1, R66 to R69). -/
def PeerRec.HeardFrom (p q : PeerRec) (c : StatusContent) : Prop :=
  let timed : Timer := some (if c.mode = .active then 30 else 150)
  let inOrder := c.seq = (p.lastSeq + 1) % 16
  (p.state = .absent → q.state = .acquiring ∧ q.origin = .absent ∧ q.expectancy = timed) ∧
  (p.state = .lost → q.state = .acquiring ∧ q.origin = .lost ∧ q.expectancy = timed) ∧
  (p.state = .acquiring → q.origin = p.origin ∧ q.expectancy = timed ∧
    (inOrder → q.state = .present ∧ q.window = [.hit, .hit, .hit, .hit, .hit]) ∧ (¬inOrder → q.state = .acquiring)) ∧
  (p.state = .present → p.window.length = 5 →
    q.window.length = 5 ∧
    (inOrder → q.window = p.window.drop 1 ++ [.hit]) ∧ (¬inOrder → q.window = p.window.drop 2 ++ [.miss, .hit]) ∧
    (2 ≤ q.window.count .miss → q.state = .lost ∧ q.expectancy = none ∧ q.missesMe = false ∧ q.missesMeCount = 0) ∧
    (q.window.count .miss < 2 → q.state = .present ∧ q.expectancy = timed))

theorem expectancyOf_eq (m : Mode) : expectancyOf m = if m = .active then 30 else 150 := by cases m <;> rfl

/-- An outcome pushed into a full window drops the oldest. -/
theorem pushHeard_full {w : List Heard} (hw : w.length = 5) (h : Heard) : pushHeard w h = w.drop 1 ++ [h] := by
  simp [pushHeard, Config.windowSize, hw, List.drop_append]

/-- The window of a PRESENT record after a STATUS: a hit, behind a miss where the sequence jumps (R67). -/
theorem pushHeard_status {w : List Heard} (hw : w.length = 5) (inOrder : Bool) :
    pushHeard (if inOrder then w else pushHeard w .miss) .hit = if inOrder then w.drop 1 ++ [.hit] else w.drop 2 ++ [.miss, .hit] := by
  cases inOrder with
  | true => exact pushHeard_full hw .hit
  | false =>
    have hmissed : (w.drop 1 ++ [Heard.miss]).length = 5 := by simp [hw]
    rw [if_neg (by simp), if_neg (by simp), pushHeard_full hw, pushHeard_full hmissed]
    simp [List.drop_append, hw]

theorem PeerRec.hear_present {p : PeerRec} (h : p.state = .present) (hw : p.window.length = 5) (seq : Nat) (mode : Mode) :
    let w := if seq = (p.lastSeq + 1) % 16 then p.window.drop 1 ++ [.hit] else p.window.drop 2 ++ [.miss, .hit]
    let q := { p with window := w, lastSeq := seq, expectancy := some (expectancyOf mode) }
    p.hear seq mode = if 2 ≤ w.count .miss then q.lose else q := by
  have hpush := pushHeard_status hw (seq == (p.lastSeq + 1) % 16)
  simp only [beq_iff_eq] at hpush
  simp only [PeerRec.hear, h, beq_iff_eq, hpush]
  rfl

theorem PeerRec.hear_heardFrom (p : PeerRec) (c : StatusContent) : p.HeardFrom ((p.hear c.seq c.mode).load c) c := by
  refine ⟨fun h => ?_, fun h => ?_, fun h => ?_, fun h hw => ?_⟩
  · simp [PeerRec.hear, PeerRec.load, h, expectancyOf_eq]
  · simp [PeerRec.hear, PeerRec.load, h, expectancyOf_eq]
  · by_cases ho : c.seq = (p.lastSeq + 1) % 16
    · simp [PeerRec.hear, PeerRec.load, h, ho, expectancyOf_eq, Config.windowSize]
    · simp [PeerRec.hear, PeerRec.load, h, ho, expectancyOf_eq]
  · rw [PeerRec.hear_present h hw]
    generalize hwin : (if c.seq = (p.lastSeq + 1) % 16 then _ else _ : List Heard) = w
    have hlen : w.length = 5 := by
      subst hwin
      split <;> simp [hw]
    have hin : c.seq = (p.lastSeq + 1) % 16 → w = p.window.drop 1 ++ [.hit] := fun ho => by rw [← hwin, if_pos ho]
    have hout : ¬c.seq = (p.lastSeq + 1) % 16 → w = p.window.drop 2 ++ [.miss, .hit] := fun ho => by rw [← hwin, if_neg ho]
    split
    · rename_i hlost
      exact ⟨hlen, hin, hout, fun _ => ⟨rfl, rfl, rfl, rfl⟩, fun hfew => absurd hlost (Nat.not_le.mpr hfew)⟩
    · rename_i hkeeps
      exact ⟨hlen, hin, hout, fun hmany => absurd hmany hkeeps, fun _ => ⟨h, by rw [← expectancyOf_eq]; rfl⟩⟩

theorem PeerRec.hear_role (p : PeerRec) (seq : Nat) (mode : Mode) : (p.hear seq mode).role = p.role := by
  unfold PeerRec.hear PeerRec.lose
  simp only
  repeat' split
  all_goals rfl

theorem PeerRec.hear_lastSeq (p : PeerRec) (seq : Nat) (mode : Mode) : (p.hear seq mode).lastSeq = seq := by
  unfold PeerRec.hear PeerRec.lose
  simp only
  repeat' split
  all_goals rfl

/-! ### What the reports of a step leave of the peer records (R74, R79) -/

/-- A peer record that has heard nothing since, and has its misses-me fields as they were where it is not PRESENT (R74). -/
def PeerRec.keptAs (p q : PeerRec) : Prop :=
  p.heardAs q ∧ (p.state ≠ .present → q.missesMe = p.missesMe ∧ q.missesMeCount = p.missesMeCount)

theorem PeerRec.heardAs.refl (p : PeerRec) : p.heardAs p := ⟨rfl, rfl, rfl, rfl, rfl, rfl, rfl, rfl, rfl, rfl⟩

theorem PeerRec.heardAs.trans {p q r : PeerRec} (h : p.heardAs q) (k : q.heardAs r) : p.heardAs r := by
  obtain ⟨h1, h2, h3, h4, h5, h6, h7, h8, h9, h10⟩ := h
  obtain ⟨k1, k2, k3, k4, k5, k6, k7, k8, k9, k10⟩ := k
  exact ⟨k1.trans h1, k2.trans h2, k3.trans h3, k4.trans h4, k5.trans h5, k6.trans h6, k7.trans h7, k8.trans h8, k9.trans h9,
    k10.trans h10⟩

theorem PeerRec.keptAs.refl (p : PeerRec) : p.keptAs p := ⟨.refl p, fun _ => ⟨rfl, rfl⟩⟩

theorem PeerRec.keptAs.trans {p q r : PeerRec} (h : p.keptAs q) (k : q.keptAs r) : p.keptAs r := by
  have hstate : q.state = p.state := h.1.2.1
  refine ⟨h.1.trans k.1, fun hn => ?_⟩
  obtain ⟨hm, hc⟩ := h.2 hn
  obtain ⟨km, kc⟩ := k.2 (hstate ▸ hn)
  exact ⟨km.trans hm, kc.trans hc⟩

/-- What a STATUS has left of its sender's record stands in a record that is kept. -/
theorem PeerRec.HeardFrom.kept {p q r : PeerRec} {c : StatusContent} (h : p.HeardFrom q c) (k : q.keptAs r) : p.HeardFrom r c := by
  obtain ⟨habsent, hlost, hacquiring, hpresent⟩ := h
  obtain ⟨⟨-, kst, kor, -, kw, kex, -⟩, kme⟩ := k
  unfold PeerRec.HeardFrom
  rw [kst, kor, kw, kex]
  refine ⟨habsent, hlost, hacquiring, fun hp hw => ?_⟩
  obtain ⟨hlen, hin, hout, hmany, hfew⟩ := hpresent hp hw
  refine ⟨hlen, hin, hout, fun hc => ?_, hfew⟩
  obtain ⟨h1, h2, h3, h4⟩ := hmany hc
  obtain ⟨k1, k2⟩ := kme (by simp [h1])
  exact ⟨h1, h2, k1.trans h3, k2.trans h4⟩

/-- Every peer record kept. -/
def PeersKept (s t : State) : Prop := ∀ r p, s.peer? r = some p → ∃ q, t.peer? r = some q ∧ p.keptAs q

theorem PeersKept.of_peers (h : t.pmon.peers = s.pmon.peers) : PeersKept s t := fun r p hp =>
  ⟨p, by rw [State.peer?, h]; exact hp, .refl p⟩

theorem PeersKept.of_pmon (h : t.pmon = s.pmon) : PeersKept s t := .of_peers (congrArg Pmon.peers h)

theorem PeersKept.trans (h : PeersKept s t) (k : PeersKept t u) : PeersKept s u := fun r p hp => by
  obtain ⟨q, hq, hpq⟩ := h r p hp
  obtain ⟨x, hx, hqx⟩ := k r q hq
  exact ⟨x, hx, hpq.trans hqx⟩

/-- The record of one role written, by an update that keeps it. -/
theorem PeersKept.updPeer {r : Role} {f : PeerRec → PeerRec} (hf : ∀ q, (f q).role = q.role)
    (hk : ∀ q, s.peer? r = some q → q.keptAs (f q)) : PeersKept s (s.updPeer r f) := fun x q hq => by
  rw [State.peer?_updPeer s r f hf, hq]
  refine ⟨_, rfl, ?_⟩
  simp only
  split
  · rename_i hr
    have hx : x = r := (State.peer?_role hq).symm.trans hr
    exact hk q (hx ▸ hq)
  · exact .refl q

/-! #### The reports that touch no record -/

@[simp] theorem State.viewTo_pmon (s : State) (p : Nat) (st : ViewState) : (s.viewTo p st).1.pmon = s.pmon := (s.viewTo_rest p st).2.2.1

@[simp] theorem State.enterConflict_pmon (s : State) (p : Nat) : (s.enterConflict p).1.pmon = s.pmon := by
  unfold State.enterConflict
  split <;> simp

@[simp] theorem State.retest_pmon (s : State) (p : Nat) : (s.retest p).1.pmon = s.pmon := by
  unfold State.retest
  repeat' split
  all_goals simp [Effect.andThen]

@[simp] theorem State.derive_pmon (s : State) (p : Nat) : (s.derive p).1.pmon = s.pmon := by
  cases hv : s.view? p with
  | none => simp [State.derive, hv]
  | some v => exact (State.derive_spec hv).1.pmon

@[simp] theorem State.conflictTest_pmon (s : State) (p : Nat) : (s.conflictTest p).1.pmon = s.pmon := by
  unfold State.conflictTest
  repeat' split
  all_goals simp

theorem overAll_pmon {α : Type} {f : State → α → Effect} (hf : ∀ s x, (f s x).1.pmon = s.pmon) (xs : List α) (s : State) :
    (overAll f xs s).1.pmon = s.pmon := by
  induction xs generalizing s with
  | nil => rfl
  | cons x xs ih => exact (ih _).trans (hf s x)

/-! #### A view reconciled (R80, R81) -/

/-- An entry that a reconciliation takes back becomes NEEDED, and is decided again (R81). -/
def Effect.decideAfresh (e : Effect) (sl : Slot) (p : Nat) (st : EntryStatus) : Effect :=
  e.andThen (fun t =>
    if (t.job sl).active = true ∧ (t.job sl).entryOf p = some st then
      (t.setJob sl ((t.job sl).mark p (fun _ => .needed)), [.decide sl p])
    else (t, []))

/-- A reconciliation, by the view and the peer's hold bit (R80, R81). -/
theorem State.reconcile_eq (s : State) (v : View) (held : Bool) :
    s.reconcile v held =
      match v.state, held with
      | .opened, true | .pending, true => s.viewTo v.pair .peer
      | .own, true | .ownWait, true =>
        if s.ownInside v then (if s.peerInside v then s.enterConflict v.pair else (s, []))
        else if s.needed v v.slot then (s.viewTo v.pair .peer).decideAfresh v.slot v.pair .held
        else s.viewTo v.pair .peer
      | .peer, false => s.viewTo v.pair .opened
      | .queued, false => (s.viewTo v.pair .opened).decideAfresh v.slot v.pair .claimed
      | _, _ => (s, []) := rfl

theorem Effect.decideAfresh_rest (e : Effect) (sl : Slot) (p : Nat) (st : EntryStatus) :
    (e.decideAfresh sl p st).1.clu = e.1.clu ∧ (e.decideAfresh sl p st).1.bus = e.1.bus ∧ (e.decideAfresh sl p st).1.pmon = e.1.pmon := by
  unfold Effect.decideAfresh Effect.andThen
  simp only
  split <;> exact ⟨rfl, rfl, rfl⟩

theorem Effect.decideAfresh_entry {e : Effect} {sl : Slot} {st : EntryStatus} (ha : (e.1.job sl).active = true)
    (he : (e.1.job sl).entryOf p = some st) :
    ((e.decideAfresh sl p st).1.job sl).entryOf p = some .needed ∧ Report.decide sl p ∈ (e.decideAfresh sl p st).2 := by
  unfold Effect.decideAfresh Effect.andThen
  simp only [ha, he, and_self, if_true]
  refine ⟨?_, by simp⟩
  simp [Job.entryOf_mark, he]

theorem State.reconcile_pmon (s : State) (v : View) (held : Bool) : (s.reconcile v held).1.pmon = s.pmon := by
  rw [State.reconcile_eq]
  repeat' split
  all_goals simp [Effect.decideAfresh_rest]

@[simp] theorem State.compare_pmon (s : State) (p : Nat) : (s.compare p).1.pmon = s.pmon := by
  unfold State.compare
  simp only
  repeat' split
  all_goals simp [State.reconcile_pmon]

/-! #### Every report -/

/-- No report changes what a STATUS has left of a record: the misses-me fields of a PRESENT one and the forced flag alone are written. -/
theorem handle_peersKept (r : Report) (s : State) : PeersKept s (handle r s).1 := by
  cases hl : r.isLocal with
  | true => exact .of_peers (handle_evolves (loose := False) r s (.inr hl)).passages.peers
  | false =>
    cases r with
    | retest p => exact .of_pmon (s.retest_pmon p)
    | peerLost x => exact .of_pmon (s.peerLost_rest x).2
    | peerReturned x => exact .of_pmon (overAll_pmon State.derive_pmon _ s)
    | pairTests p =>
      refine .of_pmon ?_
      show ((s.pairTests p).1).pmon = s.pmon
      simp [State.pairTests, Effect.andThen]
    | clearForced x => exact .updPeer (fun _ => rfl) fun q _ => ⟨.refl q, fun _ => ⟨rfl, rfl⟩⟩
    | syncExit =>
      refine .of_pmon ?_
      show s.syncExit.1.pmon = s.pmon
      unfold State.syncExit
      split
      · exact overAll_pmon State.derive_pmon _ _
      · rfl
    | peerTests x =>
      show PeersKept s (s.peerTests x).1
      unfold State.peerTests
      split
      · rename_i q own hq _
        split
        · rename_i hpres
          refine .updPeer (fun y => (y.countMissesMe_heardAs _).1.1) fun y hy => ?_
          obtain rfl : q = y := Option.some.inj (hq.symm.trans hy)
          exact ⟨(q.countMissesMe_heardAs _).1, fun hn => absurd hpres hn⟩
        · exact .of_peers rfl
      · exact .of_peers rfl
    | _ => simp [Report.isLocal] at hl

theorem settle_peersKept (e : Effect) : PeersKept e.1 (settle e) := by
  have hcascade : PeersKept e.1 (cascade reportBound e.2 [] e.1) :=
    cascade_keeps (J := PeersKept e.1) (R := fun _ => True)
      (fun r u _ hu => ⟨hu.trans (handle_peersKept r u), fun _ _ => trivial⟩) _ _ _ _ (.of_peers rfl) (fun _ _ => trivial)
      (fun _ _ => trivial)
  exact hcascade.trans (.of_peers (State.takeActivity_keeps _).2.2.2.2.2.2.1)

/-- No report of a step brings the station into a state other than RUN. -/
theorem Evolves.station {loose : Prop} (h : Evolves loose s t) : t.station = s.station ∨ t.station = .run := by
  induction h with
  | trans _ _ a b => exact b.elim (fun hb => a.imp hb.trans hb.trans) .inr
  | moved s v st hv hm =>
    obtain ⟨es, h⟩ := State.moveView_eq s v st
    exact .inl (by rw [h]; rfl)
  | activity s => exact .inl s.noteActivity_station
  | wake s => exact .inl s.takeActivity_keeps.2.2.2.2.2.2.2.2.1
  | running s h => exact .inr rfl
  | _ => exact .inl rfl

/-! ### The step of a STATUS (R65) -/

/-- Taking a frame off the queue, by itself no activity event, leaves the queue's rest and every passage as it is (R149). -/
theorem State.popRx_passages {x : RxFrame} {rest : List RxFrame} (h : s.bus.rx = x :: rest) (n : Nat) :
    SamePassages (s.leaving rest) (s.withSense n).popRx := by
  refine .ofClu ⟨rfl, rfl, rfl, rfl, rfl, ?_, rfl, rfl, rfl, rfl, rfl, rfl, rfl, rfl, rfl, rfl, fun _ => rfl⟩ rfl rfl rfl rfl
  simp [State.leaving, State.popRx, h]

/-- A frame of a kind whose taking is by itself no activity event, handed to its block (R149). -/
theorem TakesFrame.take_quiet {kind : Nat} {echo : Bool} {f : Frame} {rest : List RxFrame} (h : TakesFrame s kind echo f rest) (n : Nat)
    (act : State → Frame → Bool → Effect) : (s.withSense n).take kind false act = act (s.withSense n).popRx f echo := by
  have hc : (!echo && (s.withSense n).popRx.isClash f) = false := by
    cases echo with
    | true => rfl
    | false => simp [h.isClash n]
  simp only [State.take, h.headOf n, h.taking' n, hc, if_true]
  rfl

/-- A STATUS as it is applied: the record first, and then the reports (R65). -/
theorem State.applyStatus_fst {r : Role} {p : PeerRec} (h : s.peer? r = some p) (c : StatusContent) :
    let t := s.updPeer r (fun _ => (p.hear c.seq c.mode).load c)
    (s.applyStatus r c).1 = if c.moving then t.noteActivity else t := by
  simp only [State.applyStatus, h]

/-- The record as the STATUS leaves it, and the state around it, before the reports are answered (R65). -/
theorem State.applyStatus_spec {r : Role} {p : PeerRec} (h : s.peer? r = some p) (c : StatusContent) :
    let t := (s.applyStatus r c).1
    SameAround s t ∧ t.station = s.station ∧
      ∀ x, t.peer? x = (s.peer? x).map (fun y => if y.role = r then (p.hear c.seq c.mode).load c else y) := by
  have hrole : ((p.hear c.seq c.mode).load c).role = r := (p.hear_role c.seq c.mode).trans (State.peer?_role h)
  have haround : SameAround s (s.updPeer r (fun _ => (p.hear c.seq c.mode).load c)) :=
    ⟨rfl, rfl, rfl, rfl, rfl, rfl, rfl, rfl, rfl, rfl, rfl, rfl, rfl, rfl, rfl, rfl, fun _ => rfl⟩
  rw [State.applyStatus_fst h]
  simp only
  split
  · refine ⟨haround.trans (State.noteActivity_around _), State.noteActivity_station _, fun x => ?_⟩
    rw [← State.peer?_setPeer hrole x, State.peer?, State.noteActivity_pmon]
    rfl
  · exact ⟨haround, rfl, fun x => State.peer?_setPeer hrole x⟩

/-- The step of a STATUS of a peer that has a record: the record as the STATUS leaves it is kept through the answers to the reports. -/
theorem exec_statusTaken_spec {n : Nat} {f : Frame} {rest : List RxFrame} {c : StatusContent} {r : Role} {p : PeerRec}
    (h : TakesFrame s kStatus false f rest) (hc : payload f = .status c) (hr : roleOf f.sender = some r) (hp : s.peer? r = some p) :
    ∃ t q, exec (.statusTaken n) s = .next t ∧ t.peer? r = some q ∧ SameAround (s.leaving rest) t ∧
      (t.station = s.station ∨ s.station = .sync ∧ t.station = .run) ∧
      (∀ x y, x ≠ r → s.peer? x = some y → ∃ z, t.peer? x = some z ∧ y.heardAs z) ∧
      ((p.hear c.seq c.mode).load c).keptAs q := by
  let b := (s.withSense n).popRx
  have hb : b.peer? r = some p := hp
  have hexec : exec (.statusTaken n) s = .next (settle (b.applyStatus r c)) := by
    have hframe : b.statusFrame f false = b.applyStatus r c := by simp [State.statusFrame, hc, hr]
    rw [← hframe]
    exact congrArg (fun e => Host.Outcome.next (settle e)) (h.take_quiet n State.statusFrame)
  obtain ⟨haround, hst, hpeer⟩ := State.applyStatus_spec hb c
  have hkept := settle_peersKept (b.applyStatus r c)
  obtain ⟨q, hq, hload⟩ := hkept r _ (by rw [hpeer, hb, Option.map_some, if_pos (State.peer?_role hp)])
  refine ⟨_, q, hexec, hq, ?_, ?_, fun x y hx hy => ?_, hload⟩
  · exact ((State.popRx_passages h.head n).toSameAround.trans haround).trans (settle_around _)
  · rcases (settle_evolves (loose := True) (b.applyStatus r c) (.inl trivial)).station with hrun | hrun
    · exact .inl (hrun.trans hst)
    · rcases h.taking with hsync | hrun'
      · exact .inr ⟨hsync, hrun⟩
      · exact .inl (hrun.trans hrun'.symm)
  · have hy' : (b.applyStatus r c).1.peer? x = some y := by
      have hby : b.peer? x = some y := hy
      rw [hpeer, hby, Option.map_some, if_neg (by rw [State.peer?_role hy]; exact hx)]
    obtain ⟨z, hz, hyz⟩ := hkept x y hy'
    exact ⟨z, hz, hyz.1⟩

/-! ### The comparison of a shared view (R78 to R81) -/

/-- When a view disagrees with its peer's hold bit (R78). -/
theorem mismatch_iff (st : ViewState) (held : Bool) :
    mismatch st held = true ↔
      (held = true ∧ (st = .opened ∨ st = .pending ∨ st = .own ∨ st = .ownWait)) ∨ (held = false ∧ (st = .peer ∨ st = .queued)) := by
  cases st <;> cases held <;> simp [mismatch]

/-- The comparison in RUN of a view shared with a peer that has a record (R78). -/
theorem State.compare_shared {r : Role} {q : PeerRec} (hv : s.view? p = some v) (hr : v.peerRole = some r) (hq : s.peer? r = some q)
    (hrun : s.station = .run) :
    let held := q.holdSet.getLsbD p
    s.compare p =
      if mismatch v.state held = true then
        if v.reconcile + 1 ≥ 2 ∨ q.forced = true then (s.updView p (fun w => { w with reconcile := 0 })).reconcile v held
        else (s.updView p (fun w => { w with reconcile := v.reconcile + 1 }), [])
      else (s.updView p (fun w => { w with reconcile := 0 }), []) := by
  have hholds : s.peerHolds v = q.holdSet.getLsbD p := by simp only [State.peerHolds, hr, hq, State.view?_some_pair hv]
  simp only [State.compare, hv, hrun, hr, hq, hholds, Option.bind_some, ne_eq, not_true, if_false]

/-- A peer pair's view brought into another state, which gives its axis no passage (R35, R36, R49). -/
theorem State.viewTo_ungiven {st : ViewState} (hv : s.view? p = some v) (hp : v.peerRole.isSome = true) (hst : v.state ≠ st)
    (hungiven : st ≠ .own ∧ st ≠ .ownWait) :
    let t := (s.viewTo p st).1
    (∃ w, t.view? p = some w ∧ w.state = st ∧ w.reconcile = v.reconcile ∧ w.inFlight = v.inFlight ∧ w.waiter = none ∧
      (st ≠ .queued → w.waitTimer = none)) ∧ t.bus = s.bus ∧ t.job v.slot = s.job v.slot := by
  obtain ⟨-, -, -, hother, hstate⟩ := View.goTo_frame v st
  obtain ⟨hwaiter, htimer⟩ := View.goTo_waits hp hst
  have hp' : (v.goTo st).peerRole.isSome = true := by simpa [View.peerRole, hother] using hp
  refine ⟨⟨v.goTo st, State.view?_viewTo_self hv hst, hstate, ?_, ?_, by rw [hwaiter, if_neg hungiven.2],
    fun hq => by rw [htimer, if_neg hq]⟩, s.viewTo_bus p st, ?_⟩
  · unfold View.goTo; split <;> rfl
  · unfold View.goTo; split <;> rfl
  · rw [State.viewTo_job hv hp hst, View.gives_peer hp', hstate]
    simp [hungiven]

/-- What a reconciliation makes of the view and of the job's entry (R80, R81). -/
structure State.Reconciles (s : State) (v : View) (p : Nat) (e : Effect) : Prop where
  view : ∃ w, e.1.view? p = some w ∧ w.reconcile = 0 ∧ e.1.bus = s.bus ∧
    (v.state = .opened ∨ v.state = .pending → w.state = .peer ∧ w.inFlight = v.inFlight) ∧
    (v.state = .own ∨ v.state = .ownWait →
      (s.ownInside v = true → s.peerInside v = true → w.state = .conflict ∧ w.waiter = none) ∧
      (s.ownInside v = true → s.peerInside v = false → w.state = v.state ∧ w.waiter = v.waiter) ∧
      (s.ownInside v = false → w.state = .peer ∧ w.waiter = none)) ∧
    (v.state = .peer → w.state = .opened ∧ w.inFlight = v.inFlight) ∧
    (v.state = .queued → w.state = .opened ∧ w.waitTimer = none)
  entry : (s.job v.slot).active = true →
    ((v.state = .own ∨ v.state = .ownWait) → s.ownInside v = false → s.needed v v.slot = true →
      (s.job v.slot).entryOf p = some .held →
      (e.1.job v.slot).entryOf p = some .needed ∧ Report.decide v.slot p ∈ e.2) ∧
    (v.state = .queued → (s.job v.slot).entryOf p = some .claimed →
      (e.1.job v.slot).entryOf p = some .needed ∧ Report.decide v.slot p ∈ e.2)

/-- A view held by the station whose peer advertises it too (R80): CONFLICT with both axes inside, as it is with the own alone, and PEER
outside, where a job that needs the pair claims it again. -/
theorem State.reconcile_own (hv : s.view? p = some v) (hp : v.peerRole.isSome = true) (h0 : v.reconcile = 0)
    (hst : v.state = .own ∨ v.state = .ownWait) : s.Reconciles v p (s.reconcile v true) := by
  have hpair := State.view?_some_pair hv
  have hne : ∀ st, st ≠ .own → st ≠ .ownWait → v.state ≠ st := fun st h1 h2 h => by
    rcases hst with hst | hst <;> rw [hst] at h
    · exact h1 h.symm
    · exact h2 h.symm
  have heq : s.reconcile v true =
      if s.ownInside v then (if s.peerInside v then s.enterConflict p else (s, []))
      else if s.needed v v.slot then (s.viewTo p .peer).decideAfresh v.slot p .held
      else s.viewTo p .peer := by
    rw [State.reconcile_eq, hpair]
    rcases hst with hst | hst <;> rw [hst]
  rw [heq]
  cases hin : s.ownInside v with
  | true =>
    cases hpeer : s.peerInside v with
    | true =>
      obtain ⟨⟨w, hw, hws, hwr, -, hww, -⟩, hbus, -⟩ := State.viewTo_ungiven hv hp (hne .conflict (by decide) (by decide)) (by decide)
      have hfst : (s.enterConflict p).1 = (s.viewTo p .conflict).1 := State.enterConflict_fst hv
      simp only [if_true]
      refine ⟨⟨w, by rw [hfst]; exact hw, hwr.trans h0, by rw [hfst]; exact hbus, ?_⟩, fun _ => ?_⟩
      · rcases hst with hst | hst <;> simp [hst, hin, hpeer, hws, hww]
      · rcases hst with hst | hst <;> simp [hst, hin]
    | false =>
      simp only [if_true, Bool.false_eq_true, if_false]
      refine ⟨⟨v, hv, h0, rfl, ?_⟩, fun _ => ?_⟩
      · rcases hst with hst | hst <;> simp [hst, hin, hpeer]
      · rcases hst with hst | hst <;> simp [hst, hin]
  | false =>
    obtain ⟨⟨w, hw, hws, hwr, -, hww, -⟩, hbus, hjob⟩ := State.viewTo_ungiven hv hp (hne .peer (by decide) (by decide)) (by decide)
    simp only [Bool.false_eq_true, if_false]
    cases hneeds : s.needed v v.slot with
    | true =>
      obtain ⟨hclu, hb, -⟩ := (s.viewTo p .peer).decideAfresh_rest v.slot p .held
      simp only [if_true]
      refine ⟨⟨w, (State.view?_of_clu hclu p).trans hw, hwr.trans h0, hb.trans hbus, ?_⟩, fun ha => ⟨fun _ _ _ he => ?_, fun hq => ?_⟩⟩
      · rcases hst with hst | hst <;> simp [hst, hin, hws, hww]
      · exact Effect.decideAfresh_entry (by rw [hjob]; exact ha) (by rw [hjob]; exact he)
      · rcases hst with hst | hst <;> simp [hst] at hq
    | false =>
      simp only [Bool.false_eq_true, if_false]
      refine ⟨⟨w, hw, hwr.trans h0, hbus, ?_⟩, fun _ => ?_⟩
      · rcases hst with hst | hst <;> simp [hst, hin, hws, hww]
      · rcases hst with hst | hst <;> simp [hst, hneeds]

/-- A reconciliation of a view that disagrees with its peer's hold bit (R80, R81). -/
theorem State.reconcile_spec {held : Bool} (hv : s.view? p = some v) (hp : v.peerRole.isSome = true) (h0 : v.reconcile = 0)
    (hdiff : mismatch v.state held = true) : s.Reconciles v p (s.reconcile v held) := by
  have hpair := State.view?_some_pair hv
  have hto : ∀ st, v.state ≠ st → st ≠ .own ∧ st ≠ .ownWait →
      ∃ w, (s.viewTo p st).1.view? p = some w ∧ w.state = st ∧ w.reconcile = 0 ∧ w.inFlight = v.inFlight ∧
        (st ≠ .queued → w.waitTimer = none) ∧ (s.viewTo p st).1.bus = s.bus ∧ (s.viewTo p st).1.job v.slot = s.job v.slot :=
    fun st hne hst => by
      obtain ⟨⟨w, hw, hws, hwr, hwf, -, hwt⟩, hbus, hjob⟩ := State.viewTo_ungiven hv hp hne hst
      exact ⟨w, hw, hws, hwr.trans h0, hwf, hwt, hbus, hjob⟩
  rcases (mismatch_iff _ _).mp hdiff with ⟨rfl, hst | hst | hst⟩ | ⟨rfl, hst | hst⟩
  case inl.inl | inl.inr.inl =>
    have heq : s.reconcile v true = s.viewTo p .peer := by rw [State.reconcile_eq, hst, hpair]
    obtain ⟨w, hw, hws, hwr, hwf, -, hbus, -⟩ := hto .peer (by simp [hst]) (by decide)
    rw [heq]
    exact ⟨⟨w, hw, hwr, hbus, by simp [hst, hws, hwf]⟩, by simp [hst]⟩
  case inl.inr.inr => exact State.reconcile_own hv hp h0 hst
  case inr.inl =>
    have heq : s.reconcile v false = s.viewTo p .opened := by rw [State.reconcile_eq, hst, hpair]
    obtain ⟨w, hw, hws, hwr, hwf, -, hbus, -⟩ := hto .opened (by simp [hst]) (by decide)
    rw [heq]
    exact ⟨⟨w, hw, hwr, hbus, by simp [hst, hws, hwf]⟩, by simp [hst]⟩
  case inr.inr =>
    have heq : s.reconcile v false = (s.viewTo p .opened).decideAfresh v.slot p .claimed := by rw [State.reconcile_eq, hst, hpair]
    obtain ⟨w, hw, hws, hwr, -, hwt, hbus, hjob⟩ := hto .opened (by simp [hst]) (by decide)
    obtain ⟨hclu, hb, -⟩ := (s.viewTo p .opened).decideAfresh_rest v.slot p .claimed
    have hview : (s.reconcile v false).1.view? p = some w := by rw [heq, State.view?_of_clu hclu p, hw]
    refine ⟨⟨w, hview, hwr, by rw [heq, hb, hbus], by simp [hst, hws, hwt (by decide)]⟩, fun ha => ⟨by simp [hst], ?_⟩⟩
    rw [heq]
    exact fun _ he => Effect.decideAfresh_entry (by rw [hjob]; exact ha) (by rw [hjob]; exact he)

/-- The comparison that comes to a reconciliation (R79, R80). -/
theorem State.compare_reconciles {r : Role} {q : PeerRec} (hv : s.view? p = some v) (hr : v.peerRole = some r) (hq : s.peer? r = some q)
    (hrun : s.station = .run) (hdiff : mismatch v.state (q.holdSet.getLsbD p) = true) (hdue : 1 ≤ v.reconcile ∨ q.forced = true) :
    s.Reconciles v p (s.compare p) := by
  let u := s.updView p (fun w => { w with reconcile := 0 })
  let v0 : View := { v with reconcile := 0 }
  have hu : u.view? p = some v0 := State.view?_updView_self hv (fun _ => rfl)
  have hcompare : s.compare p = u.reconcile v0 (q.holdSet.getLsbD p) := by
    rw [State.compare_shared hv hr hq hrun, if_pos hdiff, if_pos (hdue.imp_left Nat.succ_le_succ)]
    rfl
  have hp : v0.peerRole.isSome = true := Option.isSome_iff_exists.mpr ⟨r, hr⟩
  obtain ⟨hview, hentry⟩ := State.reconcile_spec hu hp rfl hdiff
  rw [hcompare]
  exact ⟨hview, hentry⟩

/-- Settles O20: what the STATUS leaves in the record stands through the answers to its reports, and a view that disagrees with its
peer's hold bit is counted, or reconciled by its state. -/
theorem statusUpdatesRecord : Obligations.StatusUpdatesRecord := by
  refine ⟨fun s n f rest c r p h hc hr hp => ?_, fun s p v r q hv hr hq hrun => ⟨fun hsame => ?_, fun hdiff h0 hunforced => ?_,
    fun hdiff hdue => ?_⟩⟩
  · obtain ⟨t, q, hexec, hq, haround, hstation, hothers, hkept⟩ := exec_statusTaken_spec h hc hr hp
    obtain ⟨-, -, -, hseq, -, -, hmode, hmiss, hhold, hintervals⟩ := hkept.1
    refine ⟨t, q, hexec, hq, haround, hstation, hothers, hseq.trans (p.hear_lastSeq c.seq c.mode), hmode, hmiss, hhold, fun sl => ?_,
      (p.hear_heardFrom c).kept hkept⟩
    rw [hintervals]
    exact PerSlot.get_tabulate _ sl
  · rw [State.compare_shared hv hr hq hrun, if_neg (mt (mismatch_iff _ _).mp hsame)]
  · rw [State.compare_shared hv hr hq hrun, if_pos ((mismatch_iff _ _).mpr hdiff), if_neg (by simp [h0, hunforced]), h0]
  · obtain ⟨hview, hentry⟩ := State.compare_reconciles hv hr hq hrun ((mismatch_iff _ _).mpr hdiff) hdue
    exact ⟨hview, hentry⟩

end Sys2Proof.Machine
end

section
/-! PROOFS. O23: the step of a VEHICLE, the gateway's or a station's. -/

namespace Sys2Proof.Machine

variable {s : State} {n : Nat} {f : Frame} {rest : List RxFrame} {speed : Option SpeedClass} {park : Bool}

theorem State.gatewayTo_local (s : State) (g : Gateway) : AllLocal (s.gatewayTo g).2 := by
  rw [State.gatewayTo_eq]
  split
  · exact AllLocal.nil
  · exact (AllLocal.append _ _).mpr ⟨AllLocal.map _ _ fun _ => rfl, State.endWhere_local _ _ _ _⟩

/-- The step of a load of the gateway record keeps every passage, beyond the record itself (R82, R83). -/
theorem State.gatewayTo_settled (s : State) (g : Gateway) :
    SamePassages { s with pmon := { s.pmon with gateway := g } } (settle (s.gatewayTo g)) :=
  (s.gatewayTo_evolves g).passages.trans (settle_passages (s.gatewayTo_local g))

/-- The queue's rest with a gateway record loaded, before and after the frame is taken off the queue. -/
theorem State.popRx_gateway_passages {x : RxFrame} (h : s.bus.rx = x :: rest) (n : Nat) (g : Gateway) :
    SamePassages { s.leaving rest with pmon := { s.pmon with gateway := g } }
      { (s.withSense n).popRx with pmon := { s.pmon with gateway := g } } := by
  refine .ofClu ⟨rfl, rfl, rfl, rfl, rfl, ?_, rfl, rfl, rfl, rfl, rfl, rfl, rfl, rfl, rfl, rfl, fun _ => rfl⟩ rfl rfl rfl rfl
  simp [State.leaving, State.popRx, h]

theorem State.vehicleFrame_eq (s : State) (hp : payload f = .vehicle speed park) :
    s.vehicleFrame f = if f.sender = 7 then s.gatewayTo (gatewayOf speed park) else (s, []) := by
  simp only [State.vehicleFrame, hp]
  rfl

/-- Settles O23: the gateway's VEHICLE loads the record and reports among the station's own blocks; a station's is answered by nothing. -/
theorem vehicleLoadsGateway : Obligations.VehicleLoadsGateway := by
  intro s n f rest speed park h hp
  let b := (s.withSense n).popRx
  have hexec : exec (.vehicleTaken n) s = .next (settle (b.vehicleFrame f)) :=
    congrArg (fun e => Host.Outcome.next (settle e)) (h.take_quiet n fun t g _ => t.vehicleFrame g)
  refine ⟨_, hexec, ?_⟩
  rw [State.vehicleFrame_eq b hp]
  by_cases hgateway : f.sender = 7
  · rw [if_pos hgateway, if_pos hgateway]
    have hloaded := (State.popRx_gateway_passages h.head n (gatewayOf speed park)).trans (b.gatewayTo_settled (gatewayOf speed park))
    cases speed <;> exact hloaded
  · rw [if_neg hgateway, if_neg hgateway]
    exact (State.popRx_passages h.head n).trans (settle_passages (e := (b, [])) AllLocal.nil)

end Sys2Proof.Machine
end

section
/-! PROOFS. O24: the jobs that a change of the gateway record ends, and the step of the hold timer's expiry. -/

namespace Sys2Proof.Machine

variable {s t u : State} {sl : Slot} {k : Kind} {o : JobOutcome}

/-! ### The jobs that a cause is put to (R125, R126) -/

theorem State.endWhere_asksEnd {f : Slot → Kind → Bool} {g : Slot → Kind → QueuedOrigin → Bool} (hk : s.kindAt sl = some k) :
    asksEnd (s.endWhere o f g).2 sl o ↔ (s.job sl).active = true ∧ f sl k = true := by
  simp [asksEnd, State.endWhere, mem_allSlots, hk]

theorem State.endWhere_queuedAt {f : Slot → Kind → Bool} {g : Slot → Kind → QueuedOrigin → Bool} {q : QueuedStart}
    (hk : s.kindAt sl = some k) (hq : s.queuedAt sl = some q) :
    (s.endWhere o f g).1.queuedAt sl = if g sl k q.origin = true then q.endWith o else some q := by
  refine (PerSlot.get_tabulate _ sl).trans ?_
  rw [hq, Option.bind_some, hk]

theorem State.stillPark_iff (s : State) : s.stillPark = true ↔ s.Parked := by
  simp [State.stillPark, Gateway.stillPark, State.Parked, and_assoc]

theorem stillOnly_iff (k : Kind) : stillOnly k = true ↔ k = .tip ∨ k = .stow := by cases k <;> simp [stillOnly]

/-- Which job the gateway record ends (R126). -/
theorem State.endVehicle_asksEnd (hk : s.kindAt sl = some k) :
    asksEnd s.endVehicle.2 sl .vehicle ↔
      (s.job sl).active = true ∧
        if (s.job sl).origin = .jog then (k = .tip ∨ k = .stow) ∧ s.pmon.gateway.speed ≠ .still else ¬s.Parked := by
  refine (State.endWhere_asksEnd hk).trans (and_congr_right fun _ => ?_)
  cases (s.job sl).origin with
  | jog => simp [stillOnly_iff]
  | scene _ | yield _ | learn => simp [← State.stillPark_iff]

/-- What the gateway record makes of a job that waits to start (R126, notes/assumptions/8.md). -/
theorem State.endVehicle_queuedAt {q : QueuedStart} (hk : s.kindAt sl = some k) (hq : s.queuedAt sl = some q) :
    s.endVehicle.1.queuedAt sl =
      match q.origin with
      | .jog _ => if (k = .tip ∨ k = .stow) ∧ s.pmon.gateway.speed ≠ .still then none else some q
      | .scene _ _ _ _ | .learn => if s.Parked then some q else some { q with cause := some (q.cause.getD .vehicle) } := by
  refine (State.endWhere_queuedAt hk hq).trans ?_
  cases horigin : q.origin with
  | jog _ => simp [QueuedStart.endWith, horigin, stillOnly_iff]
  | scene _ _ _ _ | learn =>
    by_cases hp : s.Parked
    · simp [(s.stillPark_iff).mpr hp, hp]
    · simp [Bool.eq_false_iff.mpr (mt (s.stillPark_iff).mp hp), hp, QueuedStart.endWith, horigin]

/-! ### Envelopes handed to axes that do not hold (R91, R93) -/

/-- What an envelope makes of the drive of an axis that does not hold: at most the stop point, or a drive-off for lack of a way on. -/
def Drive.Handed (d e : Drive) : Prop :=
  e = d ∨ ∃ r, d.axis = .driving ∧ d.run = some r ∧ ((∃ stop, e = { d with stop := stop }) ∨ e = d.braked (afterStop r))

/-- An envelope handed to an axis that does not hold touches its drive alone. -/
theorem State.handEnvelope_drives (s : State) (sl : Slot) (h : (s.drive sl).axis ≠ .holding) :
    ∃ u d, s.handEnvelope sl = (u, []) ∧ u.mvc = s.mvc ∧ u.rcs = s.rcs ∧ (s.drive sl).Handed d ∧
      ∀ x, u.drive x = if sl = x then d else s.drive x := by
  let b := s.buildEnvelope sl
  have hb : ∀ x, b.drive x = s.drive x := fun _ => rfl
  by_cases hdrives : ∃ r, (s.drive sl).axis = .driving ∧ (s.drive sl).run = some r
  · obtain ⟨r, ha, hr⟩ := hdrives
    refine ⟨_, _, State.onEnvelope_driving (s := b) ha hr, rfl, rfl, .inr ⟨r, ha, hr, ?_⟩, fun x => State.drive_setDrive b sl x _⟩
    split
    · exact .inl ⟨_, rfl⟩
    · exact .inr rfl
  · have hidle : (s.drive sl).axis = .driving → (s.drive sl).run = none := fun ha =>
      Option.eq_none_iff_forall_ne_some.mpr fun r hr => hdrives ⟨r, ha, hr⟩
    refine ⟨b, s.drive sl, State.onEnvelope_passive (s := b) hidle h, rfl, rfl, .inl rfl, fun x => ?_⟩
    split
    · rename_i hx
      exact hx ▸ hb sl
    · exact hb x

/-! ### A job that a cause ends at the end of a brake period (R92, R113) -/

/-- A job without a cause whose axis drives its run, or has just been turned off for lack of a way on, with nothing waiting behind it. -/
structure State.EndsBraking (s : State) (sl : Slot) : Prop where
  active : (s.job sl).active = true
  cause : (s.job sl).cause = none
  handed : (s.job sl).handed = true
  taken : (s.drive sl).handed = none
  none_waits : (s.drive sl).waitingRun = none
  writing : s.rcs.writing.get sl = none
  drive : ((s.drive sl).axis = .driving ∧ ∀ r, (s.drive sl).run = some r → r.origin ≠ .relief) ∨
    ∃ d : Drive, s.drive sl = d.braked .retest

theorem State.DrivesJob.endsBraking (h : s.DrivesJob sl) : s.EndsBraking sl :=
  ⟨h.active, h.cause, h.handed, h.taken, h.none_waits, h.writing, .inl ⟨h.driving, h.main⟩⟩

/-- The job and the drive of one slot decide whether it ends so. -/
theorem State.EndsBraking.of_same (h : s.EndsBraking sl) (hj : t.job sl = s.job sl) (hd : t.drive sl = s.drive sl)
    (hr : t.rcs = s.rcs) : t.EndsBraking sl := by
  obtain ⟨h1, h2, h3, h4, h5, h6, h7⟩ := h
  exact ⟨hj ▸ h1, hj ▸ h2, hj ▸ h3, hd ▸ h4, hd ▸ h5, hr ▸ h6, hd ▸ h7⟩

/-- An envelope leaves it a job that ends so: its drive may go off, and would then be tested again (R91, R101). -/
theorem State.EndsBraking.of_handed (h : s.EndsBraking sl) (hj : t.job sl = s.job sl) (hd : (s.drive sl).Handed (t.drive sl))
    (hr : t.rcs = s.rcs) : t.EndsBraking sl := by
  rcases hd with hd | ⟨r, ha, hrun, hd⟩
  · exact h.of_same hj hd hr
  obtain ⟨hactive, hcause, hhanded, htaken, hwaits, hwriting, hdrive⟩ := h
  have hmain : r.origin ≠ .relief := by
    rcases hdrive with ⟨-, hmain⟩ | ⟨d, hbraked⟩
    · exact hmain r hrun
    · rw [hbraked] at ha
      cases ha
  rcases hd with ⟨stop, hd⟩ | hd
  · refine ⟨hj ▸ hactive, hj ▸ hcause, hj ▸ hhanded, by rw [hd]; exact htaken, by rw [hd]; exact hwaits, hr ▸ hwriting, .inl ?_⟩
    rw [hd]
    exact ⟨ha, fun x hx => by obtain rfl : r = x := Option.some.inj (hrun.symm.trans hx); exact hmain⟩
  · refine ⟨hj ▸ hactive, hj ▸ hcause, hj ▸ hhanded, by rw [hd]; exact htaken, by rw [hd]; exact hwaits, hr ▸ hwriting, .inr ?_⟩
    rw [afterStop, if_neg hmain] at hd
    exact ⟨_, hd⟩

/-- No axis of the station holds. -/
def State.NoneHolds (s : State) : Prop := ∀ sl, (s.drive sl).axis ≠ .holding

theorem Drive.Handed.not_holding {d e : Drive} (h : d.Handed e) (hd : d.axis ≠ .holding) : e.axis ≠ .holding := by
  rcases h with rfl | ⟨r, ha, -, ⟨stop, rfl⟩ | rfl⟩
  · exact hd
  · simp [ha]
  · simp [Drive.braked]

/-- Envelopes handed to axes that do not hold are answered by nothing, and leave each job that ends at a brake period's end so. -/
theorem Takes.envelopes (xs : List Slot) (h : s.NoneHolds) :
    ∃ u, Takes xs.length (xs.map Report.envelope) s u ∧ ∀ sl, s.EndsBraking sl → u.EndsBraking sl := by
  induction xs generalizing s with
  | nil => exact ⟨s, .nil s, fun _ h => h⟩
  | cons x xs ih =>
    obtain ⟨v, d, hhand, hmvc, hrcs, hd, hdrive⟩ := s.handEnvelope_drives x (h x)
    have hhanded : ∀ sl, (s.drive sl).Handed (v.drive sl) := fun sl => by
      rw [hdrive]
      split
      · rename_i hx
        exact hx ▸ hd
      · exact .inl rfl
    have hjob : ∀ sl, v.job sl = s.job sl := fun sl => by rw [State.job, hmvc]; rfl
    obtain ⟨u, htakes, hkeeps⟩ := ih fun sl => (hhanded sl).not_holding (h sl)
    have hfirst : Takes 1 [.envelope x] s v := .answer rfl (by
      show Takes 0 (s.handEnvelope x).2 (s.handEnvelope x).1 v
      rw [hhand]
      exact .nil v)
    exact ⟨u, hfirst.append htakes, fun sl hsl => hkeeps sl (hsl.of_handed (hjob sl) (hhanded sl) hrcs)⟩

/-- An end request for such a job gives it its cause and its drive the end of a brake period (R92). -/
theorem State.EndsBraking.endRequest (h : s.EndsBraking sl) (o : JobOutcome) :
    ∃ d, s.endRequest sl o = ((s.setJob sl { s.job sl with cause := some o }).setDrive sl d, []) ∧
      d.axis = .braking ∧ d.duty = 0 ∧ d.brake = true ∧ d.brakeTimer = some 50 ∧ d.afterBrake = .ended o := by
  obtain ⟨hactive, hcause, hhanded, htaken, hwaits, hwriting, hdrive⟩ := h
  rcases hdrive with ⟨hax, -⟩ | ⟨d, hbraked⟩
  · exact ⟨_, State.endRequest_driving ⟨hactive, hcause, hhanded, htaken, hwriting, hax⟩ o, rfl, rfl, rfl, rfl, rfl⟩
  · obtain ⟨-, -, hgiven⟩ := State.endRequest_clauses (o := o) hwriting hactive hcause
    obtain ⟨-, -, -, hbraking⟩ := hgiven htaken hhanded
    refine ⟨_, hbraking (by rw [hbraked]; rfl) hwaits (by simp [hbraked, Drive.braked]) (by simp [hbraked, Drive.braked]), ?_⟩
    rw [hbraked]
    exact ⟨rfl, rfl, rfl, rfl, rfl⟩

/-- End requests for such jobs, each on its own slot, are answered by nothing and end each (R113). -/
theorem State.endRequests_braking {sls : List Slot} (hn : sls.Nodup) (o : JobOutcome) (h : ∀ sl ∈ sls, s.EndsBraking sl) :
    (s.endRequests sls o).2 = [] ∧ (∀ sl ∈ sls, (s.endRequests sls o).1.EndsWith sl o) ∧
      ∀ sl ∉ sls, (s.endRequests sls o).1.job sl = s.job sl ∧ (s.endRequests sls o).1.drive sl = s.drive sl := by
  induction sls generalizing s with
  | nil => exact ⟨rfl, by simp, fun _ _ => ⟨rfl, rfl⟩⟩
  | cons x xs ih =>
    obtain ⟨hx, hxs⟩ := List.nodup_cons.mp hn
    obtain ⟨hends, hrest⟩ := List.forall_mem_cons.mp h
    obtain ⟨d, hfirst, hbraking, hduty, hbrake, htimer, hafter⟩ := hends.endRequest o
    let u := (s.setJob x { s.job x with cause := some o }).setDrive x d
    have hstep : s.endRequests (x :: xs) o = u.endRequests xs o := by
      simp [State.endRequests, overAll, Effect.andThen, hfirst, u]
    have hother : ∀ sl, x ≠ sl → u.job sl = s.job sl ∧ u.drive sl = s.drive sl := fun sl hne => by simp [u, hne]
    obtain ⟨hnil, hall, hothers⟩ := ih (s := u) hxs fun sl hsl => by
      obtain ⟨hj, hd⟩ := hother sl (fun he => hx (he ▸ hsl))
      exact (hrest sl hsl).of_same hj hd rfl
    rw [hstep]
    refine ⟨hnil, List.forall_mem_cons.mpr ⟨?_, hall⟩, fun sl hsl => ?_⟩
    · obtain ⟨hj, hd⟩ := hothers x hx
      have hju : u.job x = { s.job x with cause := some o } := by simp [u]
      have hdu : u.drive x = d := by simp [u]
      rw [hju] at hj
      rw [hdu] at hd
      exact ⟨by rw [hj]; exact hends.active, by rw [hj], hd ▸ hbraking, hd ▸ hduty, hd ▸ hbrake, hd ▸ htimer, hd ▸ hafter⟩
    · obtain ⟨hne, hnot⟩ := not_or.mp (mt List.mem_cons.mpr hsl)
      obtain ⟨hj, hd⟩ := hothers sl hnot
      obtain ⟨hju, hdu⟩ := hother sl (Ne.symm hne)
      exact ⟨hj.trans hju, hd.trans hdu⟩

/-- A job that ends at a brake period's end keeps its record through the activity of the step. -/
theorem State.EndsWith.takeActivity (h : t.EndsWith sl o) : t.takeActivity.EndsWith sl o := by
  obtain ⟨hadu, -, -, -, -, hmvc, -⟩ := t.takeActivity_keeps
  have hj : t.takeActivity.job sl = t.job sl := congrArg (fun m : Mvc => m.jobs.get sl) hmvc
  have hd : t.takeActivity.drive sl = t.drive sl := congrArg (fun a : PerSlot Drive => a.get sl) hadu
  obtain ⟨h1, h2, h3, h4, h5, h6, h7⟩ := h
  exact ⟨hj ▸ h1, hj ▸ h2, hd ▸ h3, hd ▸ h4, hd ▸ h5, hd ▸ h6, hd ▸ h7⟩

/-- The step of envelopes and of end requests behind them, where no axis holds: each job that is asked to end, ends at the end of a brake
period, whatever its envelope has made of its drive. -/
theorem settle_endsBraking {xs sls : List Slot} (hh : s.NoneHolds) (hxs : xs.length ≤ 3) (hn : sls.Nodup)
    (h : ∀ sl ∈ sls, s.EndsBraking sl) :
    ∀ sl ∈ sls, (settle (s, xs.map Report.envelope ++ [.endRequests sls o])).EndsWith sl o := by
  obtain ⟨u, hhanded, hkeeps⟩ := Takes.envelopes xs hh
  obtain ⟨hnil, hends, -⟩ := State.endRequests_braking hn o fun sl hsl => hkeeps sl (h sl hsl)
  have hasked : Takes 1 [.endRequests sls o] u (u.endRequests sls o).1 := .answer rfl (by
    show Takes 0 (u.endRequests sls o).2 (u.endRequests sls o).1 _
    rw [hnil]
    exact .nil _)
  have hbound : 1 + xs.length ≤ reportBound := by
    have : reportBound = 1000 := rfl
    omega
  rw [(hhanded.append hasked).settle (e := (s, _)) hbound]
  exact fun sl hsl => (hends sl hsl).takeActivity

/-! ### Expiry of the hold timer (R83) -/

/-- The jobs that the gateway record ends, as one request for them all. -/
theorem State.endVehicle_reports (s : State) :
    ∃ sls, s.endVehicle.2 = [.endRequests sls .vehicle] ∧ sls.Nodup ∧
      ∀ sl, sl ∈ sls ↔ asksEnd s.endVehicle.2 sl .vehicle :=
  ⟨_, rfl, List.Nodup.filter _ (by decide), fun sl => by simp [asksEnd, State.endVehicle, State.endWhere]⟩

/-- A job that the gateway record ends is active. -/
theorem State.endVehicle_active (h : asksEnd s.endVehicle.2 sl .vehicle) : (s.job sl).active = true := by
  cases hk : s.kindAt sl with
  | some k => exact ((State.endVehicle_asksEnd hk).mp h).1
  | none => simp [asksEnd, State.endVehicle, State.endWhere, hk] at h

theorem State.gatewayLoaded_rest (s : State) (g : Gateway) :
    (s.gatewayLoaded g).mvc = s.mvc ∧ (s.gatewayLoaded g).adu = s.adu ∧ (s.gatewayLoaded g).rcs = s.rcs ∧
      (s.gatewayLoaded g).role = s.role ∧ (s.gatewayLoaded g).pmon.gateway = g := by
  unfold State.gatewayLoaded
  split
  · exact ⟨rfl, rfl, rfl, rfl, rfl⟩
  · simp

/-- A station at rest in park whose jobs all drive loses the gateway record: each job that the record bars then ends VEHICLE at the end of
a brake period. -/
theorem State.gatewayTo_initial_ends (hpark : s.Parked) (hdrive : s.AllDrive) (ha : (s.job sl).active = true) (hk : s.kindAt sl = some k)
    (hbarred : (s.job sl).origin ≠ .jog ∨ k = .tip ∨ k = .stow) : (settle (s.gatewayTo .initial)).EndsWith sl .vehicle := by
  let l := s.gatewayLoaded .initial
  obtain ⟨hmvc, hadu, hrcs, hrole, hgateway⟩ := s.gatewayLoaded_rest .initial
  have hjob : ∀ x, l.job x = s.job x := fun x => congrArg (fun m : Mvc => m.jobs.get x) hmvc
  have hdrives : ∀ x, l.drive x = s.drive x := fun x => congrArg (fun a : PerSlot Drive => a.get x) hadu
  have hkinds : ∀ x, l.kindAt x = s.kindAt x := fun x => by rw [State.kindAt, hrole]; rfl
  have hmoving : l.pmon.gateway.speed ≠ .still := by
    rw [show l.pmon.gateway = .initial from hgateway]
    decide
  obtain ⟨sls, hreports, hnodup, hmem⟩ := l.endVehicle_reports
  have heq : s.gatewayTo .initial = (l.endVehicle.1, s.axisSlots.map Report.envelope ++ [.endRequests sls .vehicle]) := by
    rw [State.gatewayTo_eq, if_neg (by simp [hpark.1, Gateway.initial]), hreports]
  have hasked : asksEnd l.endVehicle.2 sl .vehicle := by
    rw [State.endVehicle_asksEnd ((hkinds sl).trans hk), hjob]
    refine ⟨ha, ?_⟩
    split
    · rename_i hjog
      exact ⟨hbarred.resolve_left (not_not_intro hjog), hmoving⟩
    · exact fun hp => hmoving hp.1
  have hends : ∀ x ∈ sls, l.endVehicle.1.EndsBraking x := fun x hx => by
    have hactive : (s.job x).active = true := hjob x ▸ State.endVehicle_active ((hmem x).mp hx)
    exact ((hdrive x).1 hactive).endsBraking.of_same (hjob x) (hdrives x) hrcs
  rw [heq]
  exact settle_endsBraking (fun x => hdrives x ▸ (hdrive x).2) (List.length_filter_le _ _) hnodup hends sl ((hmem sl).mpr hasked)

/-- Settles O24: the record's load reports among the station's own blocks alone, the envelopes that come before the end requests keep each
job of a driving axis one that ends at a brake period's end, and the request is the record's test of each job. -/
theorem holdExpiryDegradesGateway : Obligations.HoldExpiryDegradesGateway := by
  refine ⟨fun s n hhold hst => ?_, fun s sl k hk => ⟨State.endVehicle_asksEnd hk, fun q hq => State.endVehicle_queuedAt hk hq⟩⟩
  have htaking : s.taking = true := by rcases hst with h | h <;> simp [State.taking, h]
  have hsensed : SamePassages { s with pmon := { s.pmon with gateway := .initial } }
      { s.withSense n with pmon := { s.pmon with gateway := .initial } } :=
    .ofClu ⟨rfl, rfl, rfl, rfl, rfl, rfl, rfl, rfl, rfl, rfl, rfl, rfl, rfl, rfl, rfl, rfl, fun _ => rfl⟩ rfl rfl rfl rfl
  refine ⟨_, if_pos ⟨hhold, htaking⟩, hsensed.trans ((s.withSense n).gatewayTo_settled .initial), fun sl k hpark hdrive ha hk hb => ?_⟩
  have hall : (s.withSense n).AllDrive := fun x => by
    refine ⟨fun h => ?_, (hdrive x).2⟩
    obtain ⟨h1, h2, h3, h4, h5, h6, h7, h8, h9, h10⟩ := (hdrive x).1 h
    exact ⟨h1, h2, h3, h4, h5, h6, h7, h8, h9, h10⟩
  exact State.gatewayTo_initial_ends (s := s.withSense n) hpark hall ha hk hb

end Sys2Proof.Machine
end

section
/-! PROOFS. O25: a frame of another sender under the latched role, taken under any kind. -/

namespace Sys2Proof.Machine

variable {s : State} {n k : Nat} {c : Instr} {f : Frame} {rest : List RxFrame} {r : Role}

/-! ### The step of a clash frame (R77) -/

/-- In SYNC or RUN, a frame of a kind that is no echo and bears the latched role, at the head of the receive queue (R77). -/
structure ClashFrame (s : State) (k : Nat) (f : Frame) (rest : List RxFrame) (r : Role) : Prop where
  taking : s.station = .sync ∨ s.station = .run
  role : s.role = some r
  head : s.bus.rx = ⟨f, false⟩ :: rest
  kind : f.kind = k
  sender : f.sender = roleCode r

theorem ClashFrame.taking' (h : ClashFrame s k f rest r) (m : Nat) : (s.withSense m).popRx.taking = true := by
  have := h.taking
  simpa [State.taking, State.popRx] using this

theorem ClashFrame.isClash (h : ClashFrame s k f rest r) (m : Nat) : (s.withSense m).popRx.isClash f = true := by
  simp [State.isClash, State.popRx, State.sender, h.role, h.sender]

theorem ClashFrame.headIs (h : ClashFrame s k f rest r) (m : Nat) : (s.withSense m).headIs k false = some f := by
  simp [State.headIs, h.head, h.kind]

theorem ClashFrame.headOf (h : ClashFrame s k f rest r) (m : Nat) : (s.withSense m).headOf k = some ⟨f, false⟩ := by
  simp [State.headOf, h.head, h.kind]

/-- A passage frame that clashes is counted, and no view is acted on. -/
theorem ClashFrame.takePeer (h : ClashFrame s k f rest r) (m : Nat) (act : State → View → Frame → Effect) :
    (s.withSense m).takePeer k act = ((s.withSense m).popRx.clash.noteActivity, []) := by
  simp only [State.takePeer, h.headIs m, h.taking' m, h.isClash m, if_true]

/-- Any other frame that clashes is counted, and its block does not act on it. -/
theorem ClashFrame.take (h : ClashFrame s k f rest r) (m : Nat) (active : Bool) (act : State → Frame → Bool → Effect) :
    (s.withSense m).take k active act =
      (if active then (s.withSense m).popRx.clash.noteActivity else (s.withSense m).popRx.clash, []) := by
  simp only [State.take, h.headOf m, h.taking' m, h.isClash m, Bool.not_false, Bool.and_self, if_true]

/-- The step of a clash frame of any kind: the clash is counted, and the taking of all but STATUS, VEHICLE and RESULT is an activity
event (R77, R140). -/
theorem exec_clashFrame (hc : (c, k) ∈ takenKinds n) (h : ClashFrame s k f rest r) :
    ∃ m u, exec c s = .next (settle (u, [])) ∧
      (u = (s.withSense m).popRx.clash ∨ u = (s.withSense m).popRx.clash.noteActivity) := by
  have hpassage : ∀ act, settle ((s.withSense n).takePeer k act) = settle ((s.withSense n).popRx.clash.noteActivity, []) :=
    fun act => by rw [h.takePeer]
  have hframe : ∀ m active act, settle ((s.withSense m).take k active act) =
      settle (if active then (s.withSense m).popRx.clash.noteActivity else (s.withSense m).popRx.clash, []) :=
    fun m active act => by rw [h.take]
  simp only [takenKinds, List.mem_cons, Prod.mk.injEq, List.not_mem_nil, or_false] at hc
  rcases hc with ⟨rfl, rfl⟩ | ⟨rfl, rfl⟩ | ⟨rfl, rfl⟩ | ⟨rfl, rfl⟩ | ⟨rfl, rfl⟩ | ⟨rfl, rfl⟩ |
    ⟨rfl, rfl⟩ | ⟨rfl, rfl⟩ | ⟨rfl, rfl⟩ | ⟨rfl, rfl⟩
  case inl | inr.inl | inr.inr.inl | inr.inr.inr.inl => exact ⟨n, _, congrArg Host.Outcome.next (hpassage _), .inr rfl⟩
  case inr.inr.inr.inr.inl | inr.inr.inr.inr.inr.inl => exact ⟨n, _, congrArg Host.Outcome.next (hframe n false _), .inl rfl⟩
  case inr.inr.inr.inr.inr.inr.inr.inr.inr => exact ⟨s.vsense, _, congrArg Host.Outcome.next (hframe s.vsense false _), .inl rfl⟩
  all_goals exact ⟨n, _, congrArg Host.Outcome.next (hframe n true _), .inr rfl⟩

/-! ### The first clash of a window -/

/-- A first clash starts the window and sets the flag, and changes nothing else (R77). -/
theorem State.clash_first (h : s.pmon.clashWindow = none) :
    s.clash = { s with pmon := { s.pmon with clashWindow := some 1000, clashFlag := true } } := by
  rw [State.clash, h]
  rfl

/-- What the step of a first clash leaves, whether or not its frame is an activity event. -/
theorem firstClash_settled (head : s.bus.rx = ⟨f, false⟩ :: rest) (hw : s.pmon.clashWindow = none) {m : Nat} {u : State}
    (hu : u = (s.withSense m).popRx.clash ∨ u = (s.withSense m).popRx.clash.noteActivity) :
    let t := settle (u, [])
    SamePassages { s.leaving rest with pmon := { s.pmon with clashWindow := some 1000, clashFlag := true } } t ∧
      t.mvc = s.mvc ∧ t.adu = s.adu ∧ t.clu = s.clu ∧ t.rcs = s.rcs ∧ t.smon.level = s.smon.level ∧ t.bus.general = s.bus.general := by
  let counted : State :=
    { (s.withSense m).popRx with pmon := { s.pmon with clashWindow := some 1000, clashFlag := true } }
  have hcounted : (s.withSense m).popRx.clash = counted := State.clash_first hw
  rw [hcounted] at hu
  have hpopped : SamePassages { s.leaving rest with pmon := { s.pmon with clashWindow := some 1000, clashFlag := true } } counted := by
    refine .ofClu ⟨rfl, rfl, rfl, rfl, rfl, ?_, rfl, rfl, rfl, rfl, rfl, rfl, rfl, rfl, rfl, rfl, fun _ => rfl⟩ rfl rfl rfl rfl
    simp [counted, State.leaving, State.popRx, head]
  have hnoted : SamePassages counted u ∧ u.mvc = s.mvc ∧ u.adu = s.adu ∧ u.clu = s.clu ∧ u.rcs = s.rcs ∧ u.smon = s.smon ∧
      u.bus.general = s.bus.general := by
    rcases hu with rfl | rfl
    · exact ⟨.refl _, rfl, rfl, rfl, rfl, rfl, rfl⟩
    · exact ⟨(Evolves.activity (loose := False) counted).passages, counted.noteActivity_mvc, counted.noteActivity_adu,
        counted.noteActivity_clu, counted.noteActivity_rcs, counted.noteActivity_smon,
        (congrArg Bif.general counted.noteActivity_bus).trans rfl⟩
  obtain ⟨hsame, hmvc, hadu, hclu, hrcs, hsmon, hgeneral⟩ := hnoted
  obtain ⟨kadu, klevel, -, kclu, kgeneral, kmvc, -, krcs, -⟩ := u.takeActivity_keeps
  exact ⟨(hpopped.trans hsame).trans (settle_passages (e := (u, [])) AllLocal.nil), kmvc.trans hmvc, kadu.trans hadu, kclu.trans hclu,
    krcs.trans hrcs, klevel.trans (congrArg Smon.level hsmon), kgeneral.trans hgeneral⟩

/-! ### STANDSTILL (R172) -/

/-- A drive record at entry into STANDSTILL (R172). -/
theorem Drive.still_eq (d : Drive) :
    d.still =
      { d.atRest
          (match d.axis with
           | .driving | .braking | .holding => .idle
           | x => x) with waitingRun := none, handed := none } := by
  unfold Drive.still Drive.atRest
  cases d.axis <;> rfl

/-- A second clash enters STANDSTILL, where the frame is no activity event (R77, R172). -/
theorem secondClash_settled {b u : State} (hw : b.pmon.clashWindow.isSome = true) (hu : u = b.clash ∨ u = b.clash.noteActivity) :
    settle (u, []) = b.enterStandstill := by
  have hclash : b.clash = b.enterStandstill := if_pos hw
  have hquiet : b.enterStandstill.noteActivity = b.enterStandstill := if_neg (by simp [State.enterStandstill])
  rw [hclash, hquiet, or_self] at hu
  rw [hu]
  exact settle_quiet _ rfl

/-- Settles O25: a clash frame of any kind is only counted, and by the window the count starts it or enters STANDSTILL. -/
theorem roleClash : Obligations.RoleClash := by
  refine ⟨fun s n k c f rest r hc hst hr head hk hsender hw => ?_, fun s n k c f rest r hc hst hr head hk hsender hw => ?_,
    fun s hw hst => ?_⟩
  · obtain ⟨m, u, hexec, hu⟩ := exec_clashFrame hc ⟨hst, hr, head, hk, hsender⟩
    exact ⟨_, hexec, firstClash_settled head hw hu⟩
  · obtain ⟨m, u, hexec, hu⟩ := exec_clashFrame hc ⟨hst, hr, head, hk, hsender⟩
    have hwaiting : rest = s.bus.rx.drop 1 := by rw [head]; rfl
    rw [secondClash_settled (b := (s.withSense m).popRx) hw hu] at hexec
    subst hwaiting
    refine ⟨_, hexec, rfl, rfl, rfl, rfl, fun sl => ?_, rfl, rfl, rfl, rfl, rfl, rfl, rfl, rfl, rfl, rfl, rfl, rfl⟩
    exact (PerSlot.get_tabulate _ sl).trans (s.drive sl).still_eq
  · have htaking : s.taking = true := by rcases hst with h | h <;> simp [State.taking, h]
    exact if_pos ⟨hw, htaking⟩

end Sys2Proof.Machine
end

section
/-! PROOFS. O32: a frame that passes the filter, by the station's state and the room in its queue. -/

namespace Sys2Proof.Machine

variable {f : BusFrame} {s : State}

theorem lengthOfKind_of_kind {k : Nat} (hlow : 1 ≤ k) (hhigh : k ≤ 10) : lengthOfKind k = some (if k = 9 then 24 else 8) := by
  by_cases h9 : k = 9
  · subst h9
    rfl
  · rw [if_neg h9]
    exact (if_neg h9).trans (if_pos ⟨hlow, hhigh⟩)

/-- The filter passes a data frame of 11-bit identifier, of a kind of the protocol and of its length, from no reserved sender (R148). -/
theorem passesFilter_of_wellFormed (hlow : 1 ≤ f.ident.toNat / 128) (hhigh : f.ident.toNat / 128 ≤ 10)
    (hsender : f.ident.toNat / 16 % 8 ≠ 6) (hident : f.ident.toNat % 16 = 0)
    (hlen : f.data.length = if f.ident.toNat / 128 = 9 then 24 else 8) (hfd : f.fdData11 = true) : passesFilter f = true := by
  simp [passesFilter, Frame.sender, Frame.kind, hfd, hsender, hident, hlen, lengthOfKind_of_kind hlow hhigh]

/-- Where the station receives (R149, R156, R158, R177). -/
theorem State.receiving_iff (s : State) :
    s.receiving = true ↔ (s.station = .sync ∨ s.station = .run ∨ s.station = .standstill) ∧ s.bus.busOff = none := by
  simp [State.receiving, or_assoc]

theorem execFrameReceived_deaf (h : ¬s.receiving = true) : exec (.frameReceived f) s = .next s := if_neg fun hr => h hr.1

theorem execFrameReceived_receiving (hr : s.receiving = true) (ha : s.bus.attempt = none) (hf : passesFilter f = true) :
    exec (.frameReceived f) s =
      if s.bus.rx.length < 8 then
        .next (s.setBus { s.bus with rx := s.bus.rx ++ [⟨⟨f.ident, f.data⟩, false⟩] })
      else if s.station = .standstill then .next s
      else .next s.markForced := if_pos ⟨hr, ha, hf⟩

/-- Settles O32: by whether the station receives, whether the queue has room, and STANDSTILL against SYNC and RUN. -/
theorem frameEntersQueue : Obligations.FrameEntersQueue := by
  intro f s kind hlow hhigh hsender hident hlen hfd hattempt
  have hfilter := passesFilter_of_wellFormed hlow hhigh hsender hident hlen hfd
  refine ⟨fun hst hoff hroom => ?_, fun hst hoff hfull => ?_, fun hst hfull => ?_, fun hdeaf => execFrameReceived_deaf ?_⟩
  · rw [execFrameReceived_receiving (s.receiving_iff.mpr ⟨hst, hoff⟩) hattempt hfilter, if_pos hroom]
    rfl
  · have hheard : s.receiving = true := s.receiving_iff.mpr ⟨hst.imp_right .inl, hoff⟩
    have hmoving : s.station ≠ .standstill := by rcases hst with h | h <;> simp [h]
    rw [execFrameReceived_receiving hheard hattempt hfilter, if_neg (Nat.not_lt.mpr hfull), if_neg hmoving]
    rfl
  · by_cases hr : s.receiving = true
    · rw [execFrameReceived_receiving hr hattempt hfilter, if_neg (Nat.not_lt.mpr hfull), if_pos hst]
    · exact execFrameReceived_deaf hr
  · rw [s.receiving_iff]
    rintro ⟨hst, hoff⟩
    rcases hdeaf with h | h | h
    · simp [h] at hst
    · simp [h] at hst
    · simp [hoff] at h

end Sys2Proof.Machine
end

section
/-! PROOFS. O39: the miss set of a STATUS, role by role. -/

namespace Sys2Proof.Machine

theorem roleCode_lt (r : Role) : roleCode r < 6 := by cases r <;> decide

theorem roleOf_roleCode (r : Role) : roleOf (roleCode r) = some r := by cases r <;> rfl

theorem roleCode_inj {x y : Role} : roleCode x = roleCode y ↔ x = y :=
  ⟨fun h => Option.some.inj (by rw [← roleOf_roleCode x, h, roleOf_roleCode]), congrArg roleCode⟩

/-- The bit of a role in the miss set (R73). -/
theorem State.missSet_getLsbD (s : State) (x : Role) :
    s.missSet.getLsbD (roleCode x) = true ↔
      ∃ p ∈ s.pmon.peers, p.role = x ∧ (p.state = .lost ∨ s.station = .run ∧ p.state = .absent) := by
  rw [State.missSet, foldl_setBits (roleCode_lt x) (fun p : PeerRec => p.state == .lost || (s.station == .run && p.state == .absent))
    (fun p => roleCode p.role)]
  simp only [Bool.or_eq_true, Bool.and_eq_true, beq_iff_eq, BitVec.ofNat_eq_ofNat, BitVec.getLsbD_zero, Bool.false_eq_true, false_or,
    roleCode_inj]
  exact exists_congr fun p => and_congr_right fun _ => and_comm

/-- A role without a record is not in the miss set (R73). -/
theorem State.missSet_unrecorded {s : State} {r : Role} (h : ∀ p ∈ s.pmon.peers, p.role ≠ r) :
    s.missSet.getLsbD (roleCode r) = false :=
  Bool.eq_false_iff.mpr fun hbit => by
    obtain ⟨p, hp, hpr, -⟩ := (s.missSet_getLsbD r).mp hbit
    exact h p hp hpr

/-- The STATUS slot after a STATUS is built outside bus-off with no attempt on (R154). -/
theorem State.sendStatus_status {s : State} {r : Role} (hr : s.role = some r) (hoff : s.bus.busOff = none)
    (hattempt : s.bus.attempt = none) : s.sendStatus.bus.status = some (encode (roleCode r) (.status s.statusContent)) := by
  simp [State.sendStatus, Bif.placeStatus, Bif.statusAttempt, hoff, hattempt, State.sender_of_role hr]

/-- Settles O39: each bit of the miss set is set by the records of its role, and the status timer's expiry places that content. -/
theorem missSetOfStatus : Obligations.MissSetOfStatus := by
  refine ⟨fun s r _ _ hown => ⟨s.missSet_getLsbD, State.missSet_unrecorded hown⟩, fun s r htimer hst hr hoff hattempt hown => ?_⟩
  have htaking : s.taking = true := by rcases hst with h | h <;> simp [State.taking, h]
  exact ⟨s.sendStatus, _, s.statusContent, if_pos ⟨htimer, htaking⟩, State.sendStatus_status hr hoff hattempt, rfl,
    s.missSet_getLsbD, State.missSet_unrecorded hown⟩

end Sys2Proof.Machine
end

section
/-! PROOFS. O58: every command keeps the supply rules. -/

namespace Sys2Proof.Machine

variable {s t u : State}

/-! ### Updates that keep the supply rules -/

/-- No axis DRIVING under a barring level, and the recovery counter in its bounds (R98, R136). -/
def State.SupplyRules (s : State) : Prop := s.SupplyHolds ∧ s.RecoverySound

/-- An update under which the supply rules, where they held, still hold. -/
def KeepsSupply (s t : State) : Prop := s.SupplyRules → t.SupplyRules

theorem KeepsSupply.trans (h : KeepsSupply s t) (k : KeepsSupply t u) : KeepsSupply s u := k ∘ h

theorem KeepsSupply.refl (s : State) : KeepsSupply s s := id

/-- An update that leaves the level and the recovery counter as they were, and has no axis begin to drive. -/
theorem KeepsSupply.of_drives (hl : t.smon.level = s.smon.level) (hr : t.smon.recovery = s.smon.recovery)
    (hd : ∀ sl : Slot, (t.drive sl).axis = .driving → (s.drive sl).axis = .driving) : KeepsSupply s t := by
  rintro ⟨hholds, hsound⟩
  refine ⟨fun hbars sl ht => hholds ?_ sl (hd sl ht), ?_⟩
  · rwa [State.supplyBars, hl] at hbars
  · rwa [State.RecoverySound, hl, hr]

/-- An update that concerns neither the drives nor the supply monitor. -/
theorem KeepsSupply.of_same (hadu : t.adu = s.adu) (hsmon : t.smon = s.smon) : KeepsSupply s t :=
  .of_drives (congrArg Smon.level hsmon) (congrArg Smon.recovery hsmon) fun sl h => by rwa [State.drive, hadu] at h

/-- One drive record replaced by one that drives only where the former did. -/
theorem KeepsSupply.setDrive {sl : Slot} {d : Drive} (h : d.axis = .driving → (s.drive sl).axis = .driving) :
    KeepsSupply s (s.setDrive sl d) := by
  refine .of_drives rfl rfl fun x hx => ?_
  rw [State.drive_setDrive] at hx
  split at hx
  · rename_i heq
    exact heq ▸ h hx
  · exact hx

theorem Evolves.keepsSupply (h : Evolves True s t) : KeepsSupply s t := fun hs => ⟨h.supplyHolds hs.1, h.recoverySound hs.2⟩

theorem State.setReferenced_keepsSupply (s : State) (sl : Slot) (b : Bool) : KeepsSupply s (s.setReferenced sl b) :=
  .trans (t := s.setDrive sl { s.drive sl with referenced := b }) (.setDrive id) (.of_same rfl rfl)

theorem Drive.still_not_driving (d : Drive) : d.still.axis ≠ .driving := by
  unfold Drive.still
  cases d.axis <;> simp

theorem State.clash_keepsSupply (s : State) : KeepsSupply s s.clash := by
  unfold State.clash
  split
  · refine .of_drives rfl rfl fun sl h => absurd h ?_
    rw [State.drive, State.enterStandstill, PerSlot.get_tabulate]
    exact Drive.still_not_driving _
  · exact .of_same rfl rfl

theorem keepsSupply_carried : Carried KeepsSupply where
  trans := KeepsSupply.trans
  evolves := Evolves.keepsSupply
  popped _ := .of_same rfl rfl
  clashed := State.clash_keepsSupply

/-! ### The first part of each command -/

theorem State.statusFrame_keepsSupply (s : State) (f : Frame) (echo : Bool) : KeepsSupply s (s.statusFrame f echo).1 := by
  unfold State.statusFrame State.applyStatus
  split
  · split
    · exact .refl s
    · split
      · exact .refl s
      · rename_i c r _ _ _ _ p _
        have hput : KeepsSupply s (s.updPeer r (fun _ => (p.hear c.seq c.mode).load c)) := .of_same rfl rfl
        simp only
        split
        · exact hput.trans (Evolves.activity _).keepsSupply
        · exact hput
  · exact .refl s

theorem State.gatewayTo_keepsSupply (s : State) (g : Gateway) : KeepsSupply s (s.gatewayTo g).1 :=
  .trans (.of_same rfl rfl) (s.gatewayTo_evolves g).keepsSupply

theorem State.vehicleFrame_keepsSupply (s : State) (f : Frame) : KeepsSupply s (s.vehicleFrame f).1 := by
  unfold State.vehicleFrame
  split
  · split
    · exact s.gatewayTo_keepsSupply _
    · exact .refl s
  · exact .refl s

theorem State.waitExpired_keepsSupply (s : State) (v : View) : KeepsSupply s (s.waitExpired v).1 := by
  rw [State.waitExpired_fst]
  exact .of_same rfl rfl

/-- A pulse turns a drive off or leaves its axis state as it was. -/
theorem State.pulse_keepsSupply (s : State) (sl : Slot) : KeepsSupply s (s.pulse sl).1 := by
  obtain ⟨js, h⟩ := s.pulse_eq sl
  rw [h]
  have hcounted : KeepsSupply s (s.setDrive sl (s.drive sl).counted) := .setDrive fun hd => by
    unfold Drive.counted at hd
    split at hd
    · cases hd
    · exact hd
  exact hcounted.trans (.of_same rfl rfl)

theorem State.learnHome_keepsSupply (s : State) (sl : Slot) : KeepsSupply s (s.learnHome sl) := by
  have hhome : KeepsSupply s (s.setDrive sl { s.drive sl with count := 0 }) := .setDrive id
  unfold State.learnHome
  simp only
  split <;> exact hhome.trans (.of_same rfl rfl)

theorem State.stall_keepsSupply (s : State) (sl : Slot) : KeepsSupply s (s.stall sl).1 := by
  have hoff (t : State) (a : AfterBrake) : KeepsSupply t (t.driveOff sl a) := (State.driveOff_evolves t sl a).keepsSupply
  have hhome : KeepsSupply s (s.setDrive sl { s.drive sl with count := 0 }) := .setDrive id
  unfold State.stall
  simp only
  split
  · exact hoff s _
  · split
    · exact hoff s _
    · exact hoff s _
    · exact hoff s _
    · exact (State.rest_evolves s sl .fault none (by decide)).keepsSupply
    · exact (hhome.trans (State.setReferenced_keepsSupply _ sl true)).trans (hoff _ _)
    · split
      · exact hoff s _
      · exact (s.learnHome_keepsSupply sl).trans (hoff _ _)

theorem State.stallExpiry_keepsSupply (s : State) (sl : Slot) : KeepsSupply s (s.stallExpiry sl).1 := by
  unfold State.stallExpiry
  simp only
  split
  · split
    · exact .setDrive id
    · exact s.stall_keepsSupply sl
  · exact .refl s

theorem State.blankingExpiry_keepsSupply (s : State) (sl : Slot) : KeepsSupply s (s.blankingExpiry sl).1 := by
  have hover : KeepsSupply s (s.setDrive sl { s.drive sl with blankingTimer := none }) := .setDrive id
  unfold State.blankingExpiry
  simp only
  split
  · split
    · exact hover.trans (State.stall_keepsSupply _ sl)
    · exact hover
  · exact .refl s

/-- Expiry of the job timer is made of the updates of `Evolves` (R103). -/
theorem State.jobExpiry_evolves {loose : Prop} (s : State) (sl : Slot) : Evolves loose s (s.jobExpiry sl).1 := by
  unfold State.jobExpiry
  simp only
  split
  · split
    · split
      · exact State.rest_evolves s sl .fault none (by decide)
      · exact State.driveOff_evolves s sl _
    · exact State.driveOff_evolves s sl _
  · exact .refl s

/-- The end of the brake period is made of the updates of `Evolves` (R91). -/
theorem State.brakeExpiry_evolves {loose : Prop} (s : State) (sl : Slot) : Evolves loose s (s.brakeExpiry sl).1 := by
  have hkeep (t : State) (b : Timer) (run : Option Run) (a : AfterBrake) :
      Evolves loose t (t.setDrive sl { t.drive sl with brakeTimer := b, run := run, afterBrake := a }) :=
    .drive t sl _ (.same rfl rfl rfl rfl rfl rfl rfl rfl rfl rfl rfl rfl rfl rfl)
  unfold State.brakeExpiry
  simp only
  split
  · refine Evolves.trans (t := s.setDrive sl { s.drive sl with brakeTimer := none }) (hkeep s none _ _) ?_
    generalize s.setDrive sl { s.drive sl with brakeTimer := none } = t
    have hends (e : RunEnd) : Evolves loose t
        (if (s.drive sl).waitingRun.isSome = true then
          (t.setDrive sl { t.drive sl with run := none, afterBrake := .idle }, [.runEnded sl e, .beginWaiting sl])
         else t.endRun sl e).1 := by
      split
      · exact hkeep t _ none .idle
      · exact State.endRun_evolves t sl e
    have hwaits : Evolves loose t (t.beginWaiting sl).1 := State.beginWaiting_evolves t sl
    split
    · exact State.beginRelief_evolves t sl
    · exact State.testRun_evolves t sl _
    · split
      · exact hwaits
      · exact State.testRun_evolves t sl _
    · split
      · exact hwaits
      · exact State.testRun_evolves t sl _
    · exact hends _
    · exact hends _
    · exact hends _
    · split
      · exact hwaits
      · exact State.rest_evolves t sl .idle none (by decide)
  · exact .refl s

theorem State.writeComplete_keepsSupply (s : State) (sl : Slot) (n : Nat) : KeepsSupply s (s.writeComplete sl n).1 := by
  refine KeepsSupply.trans (t := s.recordSpan sl n) (.of_same rfl rfl) ?_
  generalize hr : s.recordSpan sl n = t
  simp only [State.writeComplete, hr]
  exact .trans (t := t.setDrive sl { t.drive sl with span := n, disabled := false }) (.setDrive id)
    (State.setReferenced_keepsSupply _ sl true)

theorem State.sampleSwitches_keepsSupply (s : State) (pins : SwitchPins) : KeepsSupply s (s.sampleSwitches pins).1 := by
  obtain ⟨_, _, _, ht⟩ := s.switchesTaken_eq pins
  obtain ⟨_, hj⟩ := (s.switchesTaken pins).jogChanges_eq (s.liu.sampleSwitches pins)
  rw [State.sampleSwitches_eq, hj, ht]
  exact .of_same rfl rfl

theorem State.sampleOccupancy_keepsSupply (s : State) (pins : OccupancyPins) : KeepsSupply s (s.sampleOccupancy pins).1 := by
  have hact {t : State} (h : KeepsSupply s t) : KeepsSupply s t.noteActivity := h.trans (Evolves.activity t).keepsSupply
  have hend {t : State} (h : KeepsSupply s t) : KeepsSupply s t.endOccupied.1 :=
    h.trans (State.endWhere_evolves t _ _ _).keepsSupply
  unfold State.sampleOccupancy
  simp only
  split
  · exact .of_same rfl rfl
  · split
    · exact hend (hact (.of_same rfl rfl))
    · exact hact (.of_same rfl rfl)

/-! ### Every command -/

/-- A station under reset, or as START begins, drives no axis and has its recovery counter at 0 (R161, R163). -/
theorem State.SupplyRules.at_rest (hd : ∀ sl : Slot, (s.drive sl).axis ≠ .driving) (hr : s.smon.recovery = 0) : s.SupplyRules :=
  ⟨fun _ => hd, fun _ => hr, by omega⟩

theorem State.underReset_supplyRules (x : Rcs) (q : List Instr) : (State.underReset x q).SupplyRules :=
  .at_rest (fun sl => by cases sl <;> exact AxisState.noConfusion) rfl

theorem State.started_supplyRules (s : State) (r : Role) (sw : SwitchPins) (oc : OccupancyPins) : (s.started r sw oc).SupplyRules :=
  .at_rest (fun sl => by rw [State.started_drive]; exact Rcs.startDrive_not_driving r _ sl) rfl

/-- A command that answers a state under the supply rules, where they held before it. -/
def EndsSupplied (s : State) (o : Host.Outcome State Fault Refusal) : Prop := ∀ t, o = .next t → KeepsSupply s t

theorem EndsSupplied.next (h : KeepsSupply s t) : EndsSupplied s (.next t) := fun _ hu => by cases hu; exact h

theorem EndsSupplied.stay (s : State) : EndsSupplied s (.next s) := .next (.refl s)

/-- A command that concerns neither the drives nor the supply monitor. -/
theorem EndsSupplied.direct (hadu : t.adu = s.adu) (hsmon : t.smon = s.smon) : EndsSupplied s (.next t) := .next (.of_same hadu hsmon)

/-- A command whose step is carried to its end. -/
theorem EndsSupplied.settled {e : Effect} (h : KeepsSupply s e.1) : EndsSupplied s (.next (settle e)) :=
  .next (h.trans (settle_evolves e (.inl trivial)).keepsSupply)

/-- The same of a command whose first part is made of the updates of `Evolves`, under the level it presents. -/
theorem EndsSupplied.sensed {v : Nat} {e : Effect} (h : Evolves True (s.withSense v) e.1) : EndsSupplied s (.next (settle e)) :=
  .settled (.trans (t := s.withSense v) (.of_same rfl rfl) h.keepsSupply)

/-- A command that acts where its event can happen, and changes nothing elsewhere. -/
theorem EndsSupplied.ite {P : Prop} [Decidable P] {o : Host.Outcome State Fault Refusal} (h : EndsSupplied s o) :
    EndsSupplied s (if P then o else .next s) := by
  split
  · exact h
  · exact .stay s

theorem execResetRelease_supplied (a : StrapPins) (v : Nat) (b : SwitchPins) (o : OccupancyPins) (s : State) :
    EndsSupplied s (execResetRelease a v b o s) := by
  refine .ite ?_
  split
  · exact .next fun _ => State.underReset_supplyRules s.rcs s.pending
  · rename_i r _
    exact .settled fun _ => (State.takeSample_evolves ((s.started r b o).withSense v) _).keepsSupply (s.started_supplyRules r b o)

theorem exec_keepsSupply (c : Instr) (s : State) : EndsSupplied s (exec c s) := by
  have hK := keepsSupply_carried
  cases c with
  | resetRelease a v b o => exact execResetRelease_supplied a v b o s
  | resetAssertion => exact .next fun _ => State.underReset_supplyRules _ _
  | syncEntry => exact .ite (.direct rfl rfl)
  | syncTimerExpiry => exact .ite (.settled (State.syncExit_evolves s trivial).keepsSupply)
  | ownClaimEcho v => exact .settled (hK.takeEcho (s.withSense v) _ _ _ State.ownClaim_evolves)
  | peerClaim v =>
    refine .settled (hK.takePeer (s.withSense v) _ _ fun t w f => ?_)
    split
    · exact t.peerClaimed_evolves w _
    · exact .refl t
  | ownCedeEcho v => exact .settled (hK.takeEcho (s.withSense v) _ _ _ State.ownCede_evolves)
  | peerCede v => exact .settled (hK.takePeer (s.withSense v) _ _ fun t w _ => t.peerCeded_evolves w)
  | ownDeclineEcho v => exact .settled (hK.takeEcho (s.withSense v) _ _ _ State.ownDecline_evolves)
  | peerDecline v =>
    refine .settled (hK.takePeer (s.withSense v) _ _ fun t w f => ?_)
    split
    · exact t.peerDeclined_evolves w _
    · exact .refl t
  | ownStakeEcho v => exact .settled (hK.takeEcho (s.withSense v) _ _ _ State.ownStake_evolves)
  | peerStake v => exact .settled (hK.takePeer (s.withSense v) _ _ fun t w _ => t.peerStaked_evolves w)
  | statusTaken v => exact .settled (hK.take (s.withSense v) _ _ _ State.statusFrame_keepsSupply)
  | vehicleTaken v => exact .settled (hK.take (s.withSense v) _ _ _ fun t f _ => t.vehicleFrame_keepsSupply f)
  | sceneTaken v => exact .settled (hK.take (s.withSense v) _ _ _ fun t f _ => (t.sceneFrame_evolves f).keepsSupply)
  | stopTaken v => exact .settled (hK.take (s.withSense v) _ _ _ fun t f _ => (t.stopFrame_evolves f).keepsSupply)
  | learnTaken v => exact .settled (hK.take (s.withSense v) _ _ _ fun t f _ => (t.learnFrame_evolves f).keepsSupply)
  | resultTaken => exact .settled (hK.take s _ _ _ fun t _ _ => .refl t)
  | frameReceived f =>
    refine .ite ?_
    split
    · exact .direct rfl rfl
    · split
      · exact .stay s
      · exact .direct rfl rfl
  | transmissionAttempt => exact .ite (.direct rfl rfl)
  | arbitrationLost => exact .ite (.direct rfl rfl)
  | attemptError noAck =>
    refine .ite ?_
    simp only
    split <;> exact .direct rfl rfl
  | frameCompleted =>
    show EndsSupplied s (execFrameCompleted s)
    unfold execFrameCompleted
    split
    · exact .stay s
    · exact .direct rfl rfl
  | busOffTimerExpiry v =>
    refine .ite (.next (.trans ?_ (State.assignSlots_evolves _ _).keepsSupply))
    exact .trans (.of_same rfl rfl) (settle_evolves ((s.withSense v).rejoined, s.rejoinReports) (.inl trivial)).keepsSupply
  | generalSlotAssignment => exact .next (State.assignSlot_evolves s).keepsSupply
  | statusTimerExpiry => exact .ite (.direct rfl rfl)
  | expectancyTimerExpiry peer v =>
    show EndsSupplied s (execExpectancyTimerExpiry peer v s)
    unfold execExpectancyTimerExpiry
    split
    · exact .stay s
    · exact .ite (.settled (.of_same rfl rfl))
  | clashWindowExpiry => exact .ite (.direct rfl rfl)
  | holdTimerExpiry v => exact .ite (.settled ((s.withSense v).gatewayTo_keepsSupply _))
  | waitTimerExpiry pair v =>
    show EndsSupplied s (execWaitTimerExpiry pair v s)
    unfold execWaitTimerExpiry
    split
    · exact .stay s
    · exact .ite (.settled ((s.withSense v).waitExpired_keepsSupply _))
  | controlInterval v => exact .ite (.settled (.of_same rfl rfl))
  | hallPulse sl v => exact .ite (.settled ((s.withSense v).pulse_keepsSupply sl))
  | brakeTimerExpiry sl v => exact .sensed ((s.withSense v).brakeExpiry_evolves sl)
  | stallTimerExpiry sl v => exact .settled ((s.withSense v).stallExpiry_keepsSupply sl)
  | blankingTimerExpiry sl v => exact .settled ((s.withSense v).blankingExpiry_keepsSupply sl)
  | jobTimerExpiry sl v => exact .sensed ((s.withSense v).jobExpiry_evolves sl)
  | calibrationWriteCompletion sl v =>
    show EndsSupplied s (execCalibrationWriteCompletion sl v s)
    unfold execCalibrationWriteCompletion
    split
    · exact .stay s
    · exact .settled ((s.withSense v).writeComplete_keepsSupply sl _)
  | quietTimerExpiry =>
    refine .ite ?_
    split <;> exact .direct rfl rfl
  | sampleTimerExpiry v => exact .ite (.sensed (State.takeSample_evolves (s.withSense v) _))
  | switchSample pins v => exact .ite (.settled ((s.withSense v).sampleSwitches_keepsSupply pins))
  | occupancySample pins v => exact .ite (.settled ((s.withSense v).sampleOccupancy_keepsSupply pins))
  | alwaysOnSupplyLoss => exact .direct rfl rfl

/-- Settles O58: the first part of each command begins no drive and takes no sample but by the updates of `Evolves`, and every report
of its step keeps the supply rules (`Evolves.supplyHolds`, `Evolves.recoverySound`). -/
theorem stepKeepsSupplyRules : Obligations.StepKeepsSupplyRules := by
  intro s t hs ht
  rw [step] at ht
  split at ht
  · cases ht
    exact hs
  · exact exec_keepsSupply _ _ t ht hs

end Sys2Proof.Machine
end

section
/-! PROOFS. O48 fails: nothing in its hypotheses keeps two pairs of the table from having one number. -/

namespace Sys2Proof.Machine

/-! ### A station whose table has one number twice -/

/-- M60 in RUN. The SEAT's SLIDE learns: it holds its only entry, for pair 0, its raw count is in the calibration record's write, and the
gateway waits for the RESULT. The BACK has a pair of the same number, in OWN+WAIT for a scene, and stands in its band at 900 of 1000. -/
def twinPair : State :=
  { State.underReset Rcs.initial [] with
    station := .run, role := some .m60
    clu :=
      { views :=
          [ { newView 0 .s1 ⟨780, 1000⟩ (.peer .fl .slide ⟨850, 1000⟩) with state := .ownWait, waiter := some .scene },
            { newView 0 .s0 ⟨0, 120⟩ (.peer .fl .back ⟨0, 150⟩) with state := .own } ]
        envelopes := .all .frozen, due := [] }
    adu :=
      ⟨{ Drive.blank with axis := .idle },
        { Drive.blank with axis := .idle, referenced := true, count := 900, span := 1000 }, .blank⟩
    mvc := { (State.underReset Rcs.initial []).mvc with
      jobs :=
        ⟨{ Job.free with active := true, origin := .learn, member := .active, handed := true, entries := [⟨0, .held⟩] }, .free, .free⟩
      active := some { id := .learn, requester := 7, learnSlot := some .s0, slots := (PerSlot.all (.ended .noJob)).set .s0 .pending } }
    smon := { level := .ok, recovery := 0, driveSet := .all false, timer := some 200 }
    rcs := { Rcs.initial with writing := (PerSlot.all none).set .s0 (some 300) }
    pmon := { (State.underReset Rcs.initial []).pmon with gateway := { speed := .still, park := true, known := true, hold := some 500 } } }

/-- The end of the learn has pair 0 looked at for a YIELD (R55). The BACK's pair answers to that number first, and a claim waits there, so
that the BACK gives way and its YIELD run is handed to its drive. -/
theorem twinPair_completes :
    ∃ t, exec (.calibrationWriteCompletion .s0 0) twinPair = .next t ∧ (t.drive .s1).handed.isSome = true := ⟨_, rfl, by decide⟩

/-- Refutes O48: the second clause has the drives of the other axes unchanged, and in `twinPair_completes` the end of the learn hands the
BACK a run. The clearance table gives each pair one number (R12), but the statement speaks of every state. -/
theorem not_calibrationCompletes : ¬ Obligations.CalibrationCompletes := by
  intro h
  obtain ⟨-, hlearn, -, -⟩ := h
  obtain ⟨t, ht, -, -, -, -, -, -, hothers, -⟩ :=
    hlearn twinPair .s0 0 300 7 .m60 rfl rfl rfl rfl rfl rfl rfl rfl (by decide) rfl (by decide) (by decide)
      (fun y hy => match y with | .s0 => absurd rfl hy | .s1 | .s2 => by decide)
  obtain ⟨u, hu, hhanded⟩ := twinPair_completes
  obtain rfl : t = u := Host.Outcome.next.inj (ht.symm.trans hu)
  obtain ⟨hdrive, -⟩ := hothers .s1 (by decide)
  rw [hdrive] at hhanded
  exact Bool.noConfusion hhanded

end Sys2Proof.Machine
end

section
/-! PROOFS. O50: the entry into CRITICAL, and end requests for several jobs with one cause. -/

namespace Sys2Proof.Machine

variable {s : State} {sl : Slot} {o : JobOutcome}

/-! ### The entry into CRITICAL (R98, R135) -/

/-- A sample below 9.0 V on any level but CRITICAL gives CRITICAL (R135). -/
theorem applySample_critical {l : Level} {n v : Nat} (hl : l ≠ .critical) (hv : v < 90) : applySample l n v = (.critical, 0) := by
  cases l with
  | critical => exact absurd rfl hl
  | unknown | ok | low => simp [applySample, levelAfter, hv]

/-- A sample that enters CRITICAL turns every drive off, and the MVC is told (R98, R137). -/
theorem State.takeSample_critical (hl : s.smon.level ≠ .critical) (hv : supplySample s.vsense < 90) (period : Nat) :
    s.takeSample period =
      (State.stopDrives { s with smon := { s.smon with level := .critical, recovery := 0, timer := some period } },
        [.supplyCritical]) := by
  simp [State.takeSample, applySample_critical hl hv, hl]

/-- A drive that is sound and not DRIVING has its outputs off (R86). -/
theorem Drive.sound.off_at_rest {d : Drive} (h : d.sound) (ha : d.axis ≠ .driving) : d.duty = 0 ∧ d.brake = true := by
  obtain ⟨⟨-, -, hoff⟩, -, -⟩ := h
  exact hoff ha

/-- The step of a sample that enters CRITICAL ends with the level CRITICAL and no axis DRIVING, whatever its reports do (R98). -/
theorem State.settle_takeSample_critical (hl : s.smon.level ≠ .critical) (hv : supplySample s.vsense < 90) (period : Nat) :
    let t := settle (s.takeSample period)
    t.smon.level = .critical ∧ ∀ x : Slot, (t.drive x).axis ≠ .driving := by
  intro t
  let u := (s.takeSample period).1
  have hu : u = State.stopDrives { s with smon := { s.smon with level := .critical, recovery := 0, timer := some period } } :=
    congrArg Prod.fst (State.takeSample_critical hl hv period)
  have hevolves : Evolves True u t := settle_evolves _ (.inl trivial)
  have hlow : supplySample u.vsense < 95 := by
    rw [hu, State.stopDrives_vsense]
    exact hv.trans (by decide)
  have hlevel : t.smon.level = .critical := hevolves.staysCritical (by rw [hu, State.stopDrives_smon]) hlow
  have hrests : u.SupplyHolds := fun _ x => by
    rw [hu]
    exact State.stopDrives_axis _ x
  exact ⟨hlevel, hevolves.supplyHolds hrests (by simp [State.supplyBars, hlevel])⟩

/-! ### What an end request leaves (R92, R108, R113) -/

/-- The drive that an end request for a job with no cause leaves, and whether the job ends at once, where they depend on the calibration
write in progress, on whether the job's run has been handed, and on the drive. A drive in a brake period with a run behind it, or with an
outcome of its own, is not among them. -/
inductive Drive.EndAsked (write : Option Nat) (given : Bool) (o : JobOutcome) (d : Drive) : Drive → Bool → Prop
  | writing (hw : write.isSome = true) : EndAsked write given o d d false
  | toBeTaken (hw : write = none) (hh : d.handed.isSome = true) : EndAsked write given o d { d with handed := none } true
  | notGiven (hw : write = none) (hh : d.handed = none) (hg : given = false) : EndAsked write given o d d true
  | holding (hw : write = none) (hh : d.handed = none) (hg : given = true) (ha : d.axis = .holding) :
    EndAsked write given o d (d.atRest .idle) true
  | fault (hw : write = none) (hh : d.handed = none) (hg : given = true) (ha : d.axis = .fault) : EndAsked write given o d d true
  | driving (hw : write = none) (hh : d.handed = none) (hg : given = true) (ha : d.axis = .driving) :
    EndAsked write given o d (d.braked (.ended o)) false
  | braking (hw : write = none) (hh : d.handed = none) (hg : given = true) (ha : d.axis = .braking) (hr : d.waitingRun = none)
    (hb : d.afterBrake = .retest) : EndAsked write given o d { d with afterBrake := .ended o } false

/-- The job of a slot has been given a cause, its drive is `d`, and, where `ends`, its end is among the reports. -/
def State.EndTaken (s : State) (sl : Slot) (o : JobOutcome) (e : Effect) (d : Drive) (ends : Bool) : Prop :=
  e.1.job sl = { s.job sl with cause := some o } ∧ e.1.drive sl = d ∧ (ends = true → Report.finishJob sl o ∈ e.2)

variable {d : Drive} {ends : Bool}

/-- The case of one end request (R92, R107, R108, R113). -/
theorem State.endRequest_taken (ha : (s.job sl).active = true) (hc : (s.job sl).cause = none)
    (h : (s.drive sl).EndAsked (s.rcs.writing.get sl) (s.job sl).handed o d ends) : s.EndTaken sl o (s.endRequest sl o) d ends := by
  cases h with
  | writing hw =>
    have heq : s.endRequest sl o = (s.setJob sl { s.job sl with cause := some o }, []) := by
      simp [State.endRequest, ha, hc, State.writingAt, hw]
    simp [State.EndTaken, heq]
  | toBeTaken hw hh =>
    obtain ⟨htaken, -, -⟩ := State.endRequest_clauses (o := o) hw ha hc
    simp [State.EndTaken, htaken hh]
  | notGiven hw hh hg =>
    obtain ⟨-, hnever, -⟩ := State.endRequest_clauses (o := o) hw ha hc
    simp [State.EndTaken, hnever hh hg]
  | holding hw hh hg hax =>
    obtain ⟨-, -, hgiven⟩ := State.endRequest_clauses (o := o) hw ha hc
    obtain ⟨hholding, -⟩ := hgiven hh hg
    obtain ⟨hends, hdrive, hmvc⟩ := hholding hax
    refine ⟨?_, hdrive, fun _ => by simp [hends]⟩
    rw [State.job, hmvc]
    exact (State.job_setJob s sl sl _).trans (if_pos rfl)
  | fault hw hh hg hax =>
    have heq : s.endRequest sl o = (s.setJob sl { s.job sl with cause := some o }, [.finishJob sl o]) := by
      simp [State.endRequest, ha, hc, State.writingAt, hw, hh, hg, hax]
    simp [State.EndTaken, heq]
  | driving hw hh hg hax => simp [State.EndTaken, State.endRequest_driving ⟨ha, hc, hg, hh, hw, hax⟩ o]
  | braking hw hh hg hax hr hb =>
    obtain ⟨-, -, hgiven⟩ := State.endRequest_clauses (o := o) hw ha hc
    obtain ⟨-, -, -, hbraking⟩ := hgiven hh hg
    simp [State.EndTaken, hbraking hax hr (by simp [hb]) (by simp [hb])]

/-! ### End requests for several jobs (R113) -/

theorem State.endRequests_cons (s : State) (x : Slot) (xs : List Slot) (o : JobOutcome) :
    s.endRequests (x :: xs) o =
      (((s.endRequest x o).1.endRequests xs o).1, (s.endRequest x o).2 ++ ((s.endRequest x o).1.endRequests xs o).2) := rfl

/-- A job that has its cause keeps it, and its drive stays, whatever further end requests come (R113). -/
theorem State.endRequests_caused (sls : List Slot) (h : (s.job sl).cause.isSome = true) :
    (s.endRequests sls o).1.job sl = s.job sl ∧ (s.endRequests sls o).1.drive sl = s.drive sl := by
  induction sls generalizing s with
  | nil => exact ⟨rfl, rfl⟩
  | cons x xs ih =>
    rw [State.endRequests_cons]
    have hfirst : (s.endRequest x o).1.job sl = s.job sl ∧ (s.endRequest x o).1.drive sl = s.drive sl := by
      by_cases hx : sl = x
      · subst hx
        rw [State.endRequest_none (.inr h)]
        exact ⟨rfl, rfl⟩
      · obtain ⟨-, hframe⟩ := s.endRequest_frame x o
        exact hframe sl hx
    obtain ⟨hjob, hdrive⟩ := hfirst
    obtain ⟨hjobs, hdrives⟩ := ih (hjob ▸ h)
    exact ⟨hjobs.trans hjob, hdrives.trans hdrive⟩

/-- A job among those asked is taken as by its own request: those before it are for other slots, and those behind it find its cause. -/
theorem State.endRequests_taken {sls : List Slot} (hsl : sl ∈ sls) (ha : (s.job sl).active = true) (hc : (s.job sl).cause = none)
    (h : (s.drive sl).EndAsked (s.rcs.writing.get sl) (s.job sl).handed o d ends) :
    s.EndTaken sl o (s.endRequests sls o) d ends := by
  induction sls generalizing s with
  | nil => cases hsl
  | cons x xs ih =>
    rw [State.endRequests_cons]
    by_cases hx : sl = x
    · subst hx
      obtain ⟨hjob, hdrive, hends⟩ := State.endRequest_taken ha hc h
      obtain ⟨hjobs, hdrives⟩ := State.endRequests_caused (o := o) xs (s := (s.endRequest sl o).1) (sl := sl) (by simp [hjob])
      exact ⟨hjobs.trans hjob, hdrives.trans hdrive, fun he => List.mem_append_left _ (hends he)⟩
    · obtain ⟨hrcs, hframe⟩ := s.endRequest_frame x o
      obtain ⟨hjob, hdrive⟩ := hframe sl hx
      have hin : sl ∈ xs := (List.mem_cons.mp hsl).resolve_left hx
      obtain ⟨hjobs, hdrives, hends⟩ :=
        ih hin (hjob ▸ ha) (hjob ▸ hc) (by rw [hdrive, hrcs, hjob]; exact h)
      exact ⟨hjob ▸ hjobs, hdrives, fun he => List.mem_append_right _ (hends he)⟩

/-! ### The statement -/

/-- The MVC asks exactly the active jobs to end SUPPLY (R127, R137). -/
theorem State.supplyCritical_asksEnd : asksEnd s.supplyCritical.2 sl .supply ↔ (s.job sl).active = true := by
  simp [State.supplyCritical, State.endAll, asksEnd, mem_allSlots]

/-- What waits for an axis at the entry into CRITICAL (notes/assumptions/8.md). -/
theorem State.supplyCritical_queuedAt {q : QueuedStart} (hq : s.queuedAt sl = some q) :
    s.supplyCritical.1.queuedAt sl = q.endWith .supply := by
  have hget : s.supplyCritical.1.queuedAt sl = (s.queuedAt sl).bind (fun q => q.endWith .supply) := PerSlot.get_tabulate _ sl
  rw [hget, hq]
  rfl

/-- Settles O50: the entry into CRITICAL by the updates of its step (`Evolves.staysCritical`, `Evolves.supplyHolds`), the end requests by
induction on the slots asked (`State.endRequests_taken`). -/
theorem criticalStopsDrives : Obligations.CriticalStopsDrives := by
  refine ⟨fun s n ht hl hn => ?_, fun s sl => ⟨State.supplyCritical_asksEnd, fun q => State.supplyCritical_queuedAt⟩,
    fun s sls o sl => ⟨fun hsl => ?_, fun hsl ha hc => ⟨fun hw => ?_, fun hw => ⟨fun hh => ?_, fun hh hg => ?_, fun hh hg =>
      ⟨fun hax => ?_, fun hax => ?_, fun hax => ?_, fun hax hr hb => ?_⟩⟩⟩⟩⟩
  case refine_1 =>
    let e := (s.withSense n).takeSample s.samplePeriod
    have hv : supplySample (s.withSense n).vsense < 90 := lt_of_le_of_lt (min_le_left _ _) hn
    obtain ⟨hlevel, hoff⟩ := State.settle_takeSample_critical (s := s.withSense n) hl hv s.samplePeriod
    have hpassages : SamePassages s (settle e) :=
      ((s.withSense_passages n).trans (State.takeSample_evolves (loose := False) _ _).passages).trans
        (settle_passages (State.takeSample_local _ _))
    refine ⟨settle e, if_pos ht, hpassages, hlevel, hoff, fun hs sl => ?_⟩
    have htaken : e.1.DrivesSound := (State.takeSample_evolves (loose := True) (s.withSense n) _).drivesSound hs
    have hsound : (settle e).DrivesSound := (settle_evolves e (.inl trivial)).drivesSound htaken
    exact (hsound sl).off_at_rest (hoff sl)
  case refine_2 =>
    obtain ⟨-, hframe⟩ := s.endRequests_frame sls o
    exact hframe sl hsl
  case refine_3 =>
    obtain ⟨hjob, hdrive, -⟩ := State.endRequests_taken hsl ha hc (.writing hw)
    exact ⟨hjob, hdrive⟩
  case refine_4 =>
    obtain ⟨hjob, hdrive, hends⟩ := State.endRequests_taken hsl ha hc (.toBeTaken hw hh)
    exact ⟨hjob, hdrive, hends rfl⟩
  case refine_5 =>
    obtain ⟨hjob, hdrive, hends⟩ := State.endRequests_taken hsl ha hc (.notGiven hw hh hg)
    exact ⟨hjob, hdrive, hends rfl⟩
  case refine_6 =>
    obtain ⟨hjob, hdrive, hends⟩ := State.endRequests_taken hsl ha hc (.holding hw hh hg hax)
    exact ⟨hjob, hdrive, hends rfl⟩
  case refine_7 =>
    obtain ⟨hjob, hdrive, hends⟩ := State.endRequests_taken hsl ha hc (.fault hw hh hg hax)
    exact ⟨hjob, hdrive, hends rfl⟩
  case refine_8 =>
    obtain ⟨hjob, hdrive, -⟩ := State.endRequests_taken hsl ha hc (.driving hw hh hg hax)
    exact ⟨hjob, hdrive⟩
  case refine_9 =>
    obtain ⟨hjob, hdrive, -⟩ := State.endRequests_taken hsl ha hc (.braking hw hh hg hax hr hb)
    exact ⟨hjob, hdrive⟩

end Sys2Proof.Machine
end

section
/-! PROOFS. The end of a job with no claim left, under views that ask for nothing (R113): what its reports leave of the station. -/

namespace Sys2Proof.Machine

variable {s t u : State} {sl : Slot}

/-! ### What the end of a job leaves as it is -/

/-- The drives, the supply and activity monitors, the views, and what one slot has of the MVC are as they were. -/
structure State.LeavesSlot (s t : State) (sl : Slot) : Prop where
  adu : t.adu = s.adu
  smon : t.smon = s.smon
  amon : t.amon = s.amon
  views : t.clu.views = s.clu.views
  job : t.job sl = s.job sl
  queuedAt : t.queuedAt sl = s.queuedAt sl

theorem State.LeavesSlot.refl (s : State) (sl : Slot) : s.LeavesSlot s sl := ⟨rfl, rfl, rfl, rfl, rfl, rfl⟩

theorem State.LeavesSlot.trans (h : s.LeavesSlot t sl) (g : t.LeavesSlot u sl) : s.LeavesSlot u sl :=
  ⟨g.adu.trans h.adu, g.smon.trans h.smon, g.amon.trans h.amon, g.views.trans h.views, g.job.trans h.job, g.queuedAt.trans h.queuedAt⟩

/-- Bands marked passed on any axis leave the slot of a job that has ended (R31). -/
theorem State.markPassed_leavesSlot (h : (s.job sl).active = false) (x : Slot) : s.LeavesSlot (s.markPassed x) sl := by
  by_cases hx : x = sl
  · subst hx
    rw [State.markPassed_inactive h]
    exact .refl s x
  · obtain ⟨es, hm | hm⟩ := s.markPassed_eq x <;> rw [hm]
    · exact ⟨rfl, rfl, rfl, rfl, by simp [hx], rfl⟩
    · exact .refl s sl

theorem State.foldl_markPassed_leavesSlot (l : List Slot) (h : (s.job sl).active = false) :
    s.LeavesSlot (l.foldl State.markPassed s) sl := by
  induction l generalizing s with
  | nil => exact .refl s sl
  | cons x xs ih =>
    have hfirst := State.markPassed_leavesSlot h x
    exact hfirst.trans (ih (hfirst.job ▸ h))

theorem State.sendResult_leavesSlot (s : State) (e : SceneEntry) (sl : Slot) : s.LeavesSlot (s.sendResult e) sl := by
  obtain ⟨fs, gs, h⟩ := s.placeOutgoing_eq (encode s.sender (.result e.result))
  rw [State.sendResult, h]
  exact ⟨rfl, rfl, rfl, rfl, rfl, rfl⟩

theorem State.setScene_leavesSlot (s : State) (a : Option SceneEntry) (es : List SceneEntry) (sl : Slot) :
    s.LeavesSlot (s.setScene a es) sl := ⟨rfl, rfl, rfl, rfl, rfl, rfl⟩

/-- An outcome entered in the scene record changes that record and the frames alone, and is answered by nothing (R113, R120). -/
theorem State.enterOutcome_leavesSlot (s : State) (x : Slot) (m : Member) (o : JobOutcome) (sl : Slot) :
    s.LeavesSlot (s.enterOutcome x m o).1 sl ∧ (s.enterOutcome x m o).2 = [] := by
  cases m with
  | noScene => exact ⟨.refl s sl, rfl⟩
  | active =>
    unfold State.enterOutcome
    dsimp only
    split
    · exact ⟨.refl s sl, rfl⟩
    · split
      · exact ⟨(s.setScene_leavesSlot none _ sl).trans (State.sendResult_leavesSlot _ _ sl), rfl⟩
      · exact ⟨s.setScene_leavesSlot _ _ sl, rfl⟩
  | ending =>
    unfold State.enterOutcome
    dsimp only
    split
    · exact ⟨(s.setScene_leavesSlot _ _ sl).trans (State.sendResult_leavesSlot _ _ sl), rfl⟩
    · exact ⟨s.setScene_leavesSlot _ _ sl, rfl⟩

/-! ### The reports of the end of a job -/

/-- No claim waits for a pair that the station does not hold (R55). -/
theorem State.ViewsQuiet.evalYield (h : s.ViewsQuiet) (p : Nat) : s.evalYield p = (s, []) := by
  unfold State.evalYield
  split
  · rfl
  · rename_i v hv
    obtain ⟨-, -, -, -, hwait, ha, hb⟩ := h.2 v (List.mem_of_find?_eq_some hv)
    have hnone : v.waitedHolder = none := by
      cases ho : v.other with
      | peer => simp [View.waitedHolder, ho, hwait]
      | self =>
        have hholder : v.selfHolder = none := by
          rw [View.selfHolder, ho]
          cases hst : v.state <;> first | rfl | exact absurd hst ha | exact absurd hst hb
        simp [View.waitedHolder, ho, hholder]
    rw [hnone]

/-- The reports that follow the end of a job with no entry open (R113). -/
inductive Report.EndsJob (sl : Slot) : Report → Prop
  | release (p : Nat) : EndsJob sl (.release p)
  | evalYield (p : Nat) : EndsJob sl (.evalYield p)
  | sceneOutcome (m : Member) (o : JobOutcome) : EndsJob sl (.sceneOutcome sl m o)
  | startQueued : EndsJob sl (.startQueued sl)

/-- Each of them leaves the slot of the job that has ended, where nothing waits for its axis, and is answered by nothing. -/
theorem Report.EndsJob.leavesSlot {r : Report} (h : r.EndsJob sl) (hq : s.ViewsQuiet) (hj : (s.job sl).active = false)
    (hw : s.queuedAt sl = none) : s.LeavesSlot (handle r s).1 sl ∧ (handle r s).2 = [] := by
  cases h with
  | release p =>
    obtain ⟨l, hl⟩ := hq.release p
    rw [show handle (.release p) s = _ from hl]
    exact ⟨State.foldl_markPassed_leavesSlot l hj, rfl⟩
  | evalYield p =>
    rw [show handle (.evalYield p) s = _ from hq.evalYield p]
    exact ⟨.refl s sl, rfl⟩
  | sceneOutcome m o => exact s.enterOutcome_leavesSlot sl m o sl
  | startQueued =>
    have hnone : handle (.startQueued sl) s = (s, []) := by simp [handle, State.startQueued, hw]
    rw [hnone]
    exact ⟨.refl s sl, rfl⟩

/-- All of them do, taken to the end of the step. -/
theorem cascade_endsJob (n : Nat) {rs : List Report} (hr : ∀ r ∈ rs, r.EndsJob sl) (hq : s.ViewsQuiet) (hj : (s.job sl).active = false)
    (hw : s.queuedAt sl = none) : s.LeavesSlot (cascade n rs [] s) sl := by
  refine cascade_keeps (J := fun t => s.LeavesSlot t sl) (R := fun r => r.EndsJob sl) (fun r t hr ht => ?_) n rs [] s (.refl s sl) hr
    (by simp)
  obtain ⟨hleaves, hnil⟩ := hr.leavesSlot (hq.of_views ht.views) (ht.job ▸ hj) (ht.queuedAt.trans hw)
  exact ⟨ht.trans hleaves, by simp [hnil]⟩

/-! ### The end of a run that ends its job -/

/-- A view read anew in some fields that the end of a job does not use asks for as little as before. -/
theorem State.ViewsQuiet.updView {f : View → View} (h : s.ViewsQuiet) (p : Nat)
    (hf : ∀ v, (f v).claimA = v.claimA ∧ (f v).claimB = v.claimB ∧ (f v).state = v.state) : (s.updView p f).ViewsQuiet := by
  obtain ⟨hlen, hviews⟩ := h
  refine ⟨by simpa [State.updView] using hlen, fun w hw => ?_⟩
  obtain ⟨v, hv, rfl⟩ := List.mem_map.mp hw
  split
  · obtain ⟨ha, hb, hst⟩ := hf v
    rw [ha, hb, hst]
    exact hviews v hv
  · exact hviews v hv

/-- The record that the end of a job leaves, with the drives and the monitors as they were, and views that still ask for nothing. -/
theorem State.ViewsQuiet.freed (h : s.ViewsQuiet) (o : JobOutcome) (g : JobOrigin) :
    let f := (s.freed sl o).yieldOver sl g
    f.ViewsQuiet ∧ f.job sl = { Job.free with outcome := some o } ∧ f.queuedAt sl = s.queuedAt sl ∧ f.adu = s.adu ∧
      f.smon = s.smon ∧ f.amon = s.amon := by
  have hjob : (s.freed sl o).job sl = { Job.free with outcome := some o } := by simp [State.freed, State.setPin, State.job, State.setJob]
  have hviews : (s.freed sl o).ViewsQuiet := h.of_views rfl
  cases g with
  | yield p => exact ⟨hviews.updView p fun v => ⟨rfl, rfl, rfl⟩, hjob, rfl, rfl, rfl, rfl⟩
  | scene _ | jog | learn => exact ⟨hviews, hjob, rfl, rfl, rfl, rfl⟩

/-- The end of a run ends its job with an outcome, or with the cause the job was given: the drives stay, and the job's record is free
(R113, R114). -/
theorem settle_runEnded {o : JobOutcome} (hq : s.ViewsQuiet) (hj : (s.job sl).active = true) (he : (s.job sl).entries = [])
    (hw : s.queuedAt sl = none) (ha : s.amon.activityDue = false) :
    let t := settle (s, [.runEnded sl (.outcome o)])
    t.adu = s.adu ∧ t.smon = s.smon ∧
      t.job sl = { Job.free with outcome := some ((s.job sl).cause.getD (s.settleOutcome sl o)) } := by
  let c := (s.job sl).cause.getD (s.settleOutcome sl o)
  let f := (s.freed sl c).yieldOver sl (s.job sl).origin
  obtain ⟨hviews, hjob, hqueued, hadu, hsmon, hamon⟩ := hq.freed (sl := sl) c (s.job sl).origin
  obtain ⟨rs, hfinish, hrs⟩ : ∃ rs, s.finishJob sl c = (f, rs) ∧ ∀ r ∈ rs, r.EndsJob sl := by
    refine ⟨_, State.finishJob_eq hj, fun r hr => ?_⟩
    simp only [he, State.withdrawals, List.filter_nil, List.filterMap_nil, List.nil_append, List.mem_append, List.mem_map,
      List.mem_cons, List.not_mem_nil, or_false] at hr
    rcases hr with (⟨p, -, rfl⟩ | ⟨p, -, rfl⟩) | rfl | rfl
    · exact .release p
    · exact .evalYield p
    · exact .sceneOutcome _ _
    · exact .startQueued
  have hcascade : cascade reportBound [.runEnded sl (.outcome o)] [] s = cascade 998 rs [] f := by
    simp [reportBound, cascade, Report.isLate, handle, State.runEnded_outcome hj, c, hfinish]
  have hend : f.LeavesSlot (cascade 998 rs [] f) sl :=
    cascade_endsJob 998 hrs hviews (by rw [hjob]; rfl) (hqueued.trans hw)
  intro t
  have ht : t = cascade 998 rs [] f := by
    show (cascade reportBound _ [] s).takeActivity = _
    rw [hcascade]
    exact State.takeActivity_quiet (by rw [hend.amon, hamon]; exact ha)
  rw [ht]
  exact ⟨hend.adu.trans hadu, hend.smon.trans hsmon, hend.job.trans hjob⟩

/-! ### A relief run that ends in FAULT (R102, R103) -/

theorem State.settleOutcome_fault (s : State) (sl : Slot) : s.settleOutcome sl .fault = .fault := by
  unfold State.settleOutcome
  dsimp only
  split <;> simp

/-- The station with a driven axis in FAULT. -/
def State.faulted (s : State) (sl : Slot) : State := (s.setDrive sl ((s.drive sl).atRest .fault)).setDriveSet sl false

theorem State.rest_fault (h : (s.drive sl).axis = .driving) : s.rest sl .fault none = s.faulted sl :=
  State.rest_eq .fault none (by simp [h])

theorem State.faulted_drive (s : State) (sl x : Slot) :
    (s.faulted sl).drive x = if sl = x then (s.drive sl).atRest .fault else s.drive x := State.drive_setDrive s sl x _

/-- The end of a relief run in FAULT, with its job's (R102, R108, R113). -/
theorem settle_faulted (h : (s.drive sl).axis = .driving) (hq : s.ViewsQuiet) (hj : (s.job sl).active = true)
    (he : (s.job sl).entries = []) (hw : s.queuedAt sl = none) (ha : s.amon.activityDue = false) :
    let t := settle (s.rest sl .fault none, [.runEnded sl (.outcome .fault)])
    SamePassages s t ∧ (∀ x, t.drive x = if sl = x then (s.drive sl).atRest .fault else s.drive x) ∧
      t.smon.driveSet.get sl = false ∧ t.job sl = { Job.free with outcome := some ((s.job sl).cause.getD .fault) } := by
  intro t
  have hlocal : AllLocal [.runEnded sl (.outcome .fault)] := by simp [Report.isLocal]
  have hpassages : SamePassages s t :=
    (State.rest_evolves (loose := False) s sl .fault none (by decide)).passages.trans
      (settle_passages (e := (s.rest sl .fault none, [.runEnded sl (.outcome .fault)])) hlocal)
  have hrest : t = settle (s.faulted sl, [.runEnded sl (.outcome .fault)]) := by simp only [t, State.rest_fault h]
  obtain ⟨hadu, hsmon, hjob⟩ := settle_runEnded (s := s.faulted sl) (sl := sl) (o := .fault) (hq.of_views rfl) hj he hw ha
  rw [State.settleOutcome_fault] at hjob
  rw [hrest] at hpassages ⊢
  refine ⟨hpassages, fun x => ?_, ?_, hjob⟩
  · rw [State.drive, hadu]
    exact s.faulted_drive sl x
  · rw [hsmon]
    exact (PerSlot.get_set s.smon.driveSet sl sl false).trans (if_pos rfl)

end Sys2Proof.Machine
end

section
/-! PROOFS. O47: the expiry of the job timer. -/

namespace Sys2Proof.Machine

variable {s : State} {sl : Slot} {r : Run}

/-- Expiry of the job timer on a driven axis, by the run that it drives (R103). -/
theorem State.jobExpiry_driven (ha : (s.drive sl).axis = .driving) (hr : (s.drive sl).run = some r)
    (ht : (s.drive sl).jobTimer.isSome = true) :
    s.jobExpiry sl =
      if r.origin = .relief then (s.rest sl .fault none, [.runEnded sl (.outcome .fault)])
      else (s.driveOff sl (.ended .timeout), []) := by
  simp [State.jobExpiry, ha, hr, ht]

/-- Settles O47: the drive goes off, or a relief run ends its job as `settle_faulted` has it. -/
theorem jobTimerEndsRun : Obligations.JobTimerEndsRun := by
  intro s sl n r ha hr ht hact
  have hexec : exec (.jobTimerExpiry sl n) s = .next (settle ((s.withSense n).jobExpiry sl)) := rfl
  rw [hexec, State.jobExpiry_driven (s := s.withSense n) ha hr ht]
  refine ⟨fun ho => ?_, fun ho hj he _ hc hw hq => ?_⟩
  · rw [if_neg ho]
    exact congrArg _ (settle_quiet _ hact)
  · rw [if_pos ho]
    obtain ⟨hpassages, hdrive, hset, hjob⟩ := settle_faulted (s := s.withSense n) (sl := sl) ha (hq.of_views rfl) hj he hw hact
    refine ⟨_, rfl, (s.withSense_passages n).trans hpassages, (hdrive sl).trans (if_pos rfl), ?_, hset,
      fun y hy => (hdrive y).trans (if_neg hy.symm)⟩
    rw [hjob, show ((s.withSense n).job sl).cause = none from hc]
    rfl

end Sys2Proof.Machine
end

section
/-! PROOFS. O46: stalls, and the blanking that holds them. -/

namespace Sys2Proof.Machine

variable {s : State} {sl : Slot} {r : Run}

/-! ### A stall held, and a stall taken (R99) -/

theorem exec_stallTimerExpiry (s : State) (sl : Slot) (n : Nat) :
    exec (.stallTimerExpiry sl n) s = .next (settle ((s.withSense n).stallExpiry sl)) := rfl

theorem exec_blankingTimerExpiry (s : State) (sl : Slot) (n : Nat) :
    exec (.blankingTimerExpiry sl n) s = .next (settle ((s.withSense n).blankingExpiry sl)) := rfl

theorem State.stallExpiry_blanked (ha : (s.drive sl).axis = .driving) (ht : (s.drive sl).stallTimer.isSome = true)
    (hb : (s.drive sl).blankingTimer.isSome = true) :
    s.stallExpiry sl = (s.setDrive sl { s.drive sl with stallTimer := none, stallHeld := true }, []) := by
  simp [State.stallExpiry, ha, ht, hb]

theorem State.blankingExpiry_unheld (ha : (s.drive sl).axis = .driving) (hb : (s.drive sl).blankingTimer.isSome = true)
    (hh : (s.drive sl).stallHeld = false) :
    s.blankingExpiry sl = (s.setDrive sl { s.drive sl with blankingTimer := none }, []) := by
  simp [State.blankingExpiry, ha, hb, hh]

/-- The station with the blanking of a drive over. -/
def State.unblanked (s : State) (sl : Slot) : State := s.setDrive sl { s.drive sl with blankingTimer := none }

theorem State.unblanked_drive (s : State) (sl : Slot) : (s.unblanked sl).drive sl = { s.drive sl with blankingTimer := none } :=
  (State.drive_setDrive s sl sl _).trans (if_pos rfl)

theorem State.unblanked_passages (s : State) (sl : Slot) : SamePassages s (s.unblanked sl) := by
  have hcounts : ∀ x : Slot, ((s.unblanked sl).drive x).count = (s.drive x).count := fun x => by
    rw [State.unblanked, State.drive_setDrive]
    split
    · rename_i hx
      rw [hx]
    · rfl
  exact .ofClu ⟨rfl, rfl, rfl, rfl, rfl, rfl, rfl, rfl, rfl, rfl, rfl, rfl, rfl, rfl, rfl, rfl, hcounts⟩ rfl rfl rfl rfl

theorem State.unblanked_eq_self (h : (s.drive sl).blankingTimer = none) : s.unblanked sl = s := by
  rw [State.unblanked, ← h]
  show { s with adu := s.adu.set sl (s.adu.get sl) } = s
  rw [PerSlot.set_get_self]

/-- The two commands that take a stall: the stall timer's expiry with no blanking, and the blanking's with an expiry held. -/
def State.TakesStall (s : State) (sl : Slot) (n : Nat) (c : Instr) : Prop :=
  c = .stallTimerExpiry sl n ∧ (s.drive sl).stallTimer.isSome = true ∧ (s.drive sl).blankingTimer = none ∨
    c = .blankingTimerExpiry sl n ∧ (s.drive sl).blankingTimer.isSome = true ∧ (s.drive sl).stallHeld = true

/-- Both take it on the drive with its blanking over. -/
theorem State.TakesStall.exec_eq {n : Nat} {c : Instr} (h : s.TakesStall sl n c) (ha : (s.drive sl).axis = .driving) :
    exec c s = .next (settle (((s.withSense n).unblanked sl).stall sl)) := by
  rcases h with ⟨rfl, ht, hb⟩ | ⟨rfl, hb, hh⟩
  · rw [exec_stallTimerExpiry, State.unblanked_eq_self (s := s.withSense n) hb]
    simp [State.stallExpiry, ha, ht, hb]
  · rw [exec_blankingTimerExpiry]
    simp [State.blankingExpiry, ha, hb, hh, State.unblanked]

/-! ### What a stall does, by the run (R100 to R102, R105, R106) -/

/-- A drive turned off in a step with no activity and nothing to report (R91). -/
theorem settle_driveOff (a : AfterBrake) (hact : s.amon.activityDue = false) :
    settle (s.driveOff sl a, []) = s.setDrive sl ((s.drive sl).braked a) := settle_quiet _ hact

/-- A stall that only turns the drive off, with what is to follow the brake period. -/
theorem settle_unblanked_driveOff (a : AfterBrake) (hact : s.amon.activityDue = false) :
    settle ((s.unblanked sl).driveOff sl a, []) = s.setDrive sl ((s.drive sl).braked a) := by
  rw [settle_driveOff (s := s.unblanked sl) a hact, State.unblanked_drive, State.unblanked, State.setDrive_setDrive]
  rfl

theorem State.stall_obstructed (hr : (s.drive sl).run = some r) (ho : r.origin = .scene ∨ r.origin = .jog ∨ r.origin = .yield) :
    s.stall sl = (s.driveOff sl .relief, []) := by
  rcases ho with ho | ho | ho <;> simp [State.stall, hr, ho]

theorem State.stall_relief (hr : (s.drive sl).run = some r) (ho : r.origin = .relief) :
    s.stall sl = (s.rest sl .fault none, [.runEnded sl (.outcome .fault)]) := by simp [State.stall, hr, ho]

/-- The station with an axis at its home stop, its count 0 (R105, R106). -/
def State.homed (s : State) (sl : Slot) : State := s.setDrive sl { s.drive sl with count := 0 }

theorem State.homed_drive (s : State) (sl : Slot) : (s.homed sl).drive sl = { s.drive sl with count := 0 } :=
  (State.drive_setDrive s sl sl _).trans (if_pos rfl)

theorem State.stall_reference (hr : (s.drive sl).run = some r) (ho : r.origin = .reference) :
    s.stall sl = (((s.homed sl).setReferenced sl true).driveOff sl .refDone, []) := by
  simp [State.stall, hr, ho, State.homed]

theorem State.stall_learn (hr : (s.drive sl).run = some r) (ho : r.origin = .learn) :
    s.stall sl =
      if r.secondLeg then (s.driveOff sl (.rawCount (s.drive sl).count), []) else ((s.learnHome sl).driveOff sl .secondLeg, []) := by
  simp [State.stall, hr, ho]

/-- The home stop of the first learn leg, on an axis that is UNREFERENCED (R106). -/
theorem State.learnHome_unreferenced (h : (s.drive sl).referenced = false) : s.learnHome sl = (s.homed sl).buildEnvelope sl := by
  have hflag : ((s.homed sl).drive sl).referenced = false := by rw [State.homed_drive]; exact h
  show (if ((s.homed sl).drive sl).referenced then _ else s.homed sl).buildEnvelope sl = _
  rw [hflag]
  rfl

/-- A stall at the home stop of the first learn leg (R106): the count is 0, and no store is written. -/
theorem settle_learnHome (hf : (s.drive sl).referenced = false) (hact : s.amon.activityDue = false) :
    let t := settle ((s.learnHome sl).driveOff sl .secondLeg, [])
    t.drive sl = ({ s.drive sl with count := 0 } : Drive).braked .secondLeg ∧ t.rcs = s.rcs ∧ t.mvc = s.mvc ∧
      t.clu.views = s.clu.views ∧ t.bus = s.bus := by
  intro t
  have ht : t = ((s.homed sl).buildEnvelope sl).setDrive sl (((s.homed sl).drive sl).braked .secondLeg) := by
    simp only [t, State.learnHome_unreferenced hf]
    exact settle_driveOff (s := (s.homed sl).buildEnvelope sl) .secondLeg hact
  rw [ht]
  refine ⟨?_, rfl, rfl, rfl, rfl⟩
  rw [State.drive_setDrive, if_pos rfl, State.homed_drive]

/-- A stall at the home stop of a REFERENCE run (R105): the count is 0, REFERENCED is set, and the retained record is written. -/
theorem settle_referenceHome (hact : s.amon.activityDue = false) :
    let t := settle (((s.homed sl).setReferenced sl true).driveOff sl .refDone, [])
    t.drive sl = ({ s.drive sl with count := 0, referenced := true } : Drive).braked .refDone ∧ t.rcs.retained.get sl = ⟨0, true⟩ ∧
      t.mvc = s.mvc ∧ t.clu.views = s.clu.views ∧ t.bus = s.bus := by
  intro t
  have hset : ((s.homed sl).setReferenced sl true).drive sl = { s.drive sl with count := 0, referenced := true } := by
    rw [State.setReferenced_drive, if_pos rfl, State.homed_drive]
  have ht : t = ((s.homed sl).setReferenced sl true).setDrive sl
      (({ s.drive sl with count := 0, referenced := true } : Drive).braked .refDone) := by
    rw [← hset]
    exact settle_driveOff (s := (s.homed sl).setReferenced sl true) .refDone hact
  rw [ht]
  refine ⟨(State.drive_setDrive _ sl sl _).trans (if_pos rfl), ?_, rfl, rfl, rfl⟩
  simp [State.setReferenced, State.writeRetained, State.buildEnvelope, State.setEnvelope, State.homed]

/-- A relief run that stalls with no job: the axis is in FAULT, and nothing ends with it (R102). -/
theorem settle_faulted_idle (hj : (s.job sl).active = false) (hact : s.amon.activityDue = false) :
    settle (s.faulted sl, [.runEnded sl (.outcome .fault)]) = s.faulted sl := by
  have hskip : Takes 1 [.runEnded sl (.outcome .fault)] (s.faulted sl) (s.faulted sl) :=
    .skip rfl (State.runEnded_inactive (s := s.faulted sl) (e := .outcome .fault) hj)
  calc settle (s.faulted sl, [.runEnded sl (.outcome .fault)])
      = (s.faulted sl).takeActivity := Takes.settle (e := (s.faulted sl, [.runEnded sl (.outcome .fault)])) hskip (by decide)
    _ = s.faulted sl := State.takeActivity_quiet hact

/-- Settles O46: both commands take the stall on the drive with its blanking over (`State.TakesStall.exec_eq`), and the stall goes by the
origin of the run. -/
theorem stallsAndBlanking : Obligations.StallsAndBlanking := by
  intro s sl n r ha hr hact
  let u := s.withSense n
  refine ⟨fun ht hb => ?_, fun hb hh => ?_, fun c hc => ?_⟩
  · rw [exec_stallTimerExpiry, State.stallExpiry_blanked (s := u) ha ht hb]
    exact congrArg _ (settle_quiet _ hact)
  · rw [exec_blankingTimerExpiry, State.blankingExpiry_unheld (s := u) ha hb hh]
    exact congrArg _ (settle_quiet _ hact)
  · have hexec : exec c s = .next (settle ((u.unblanked sl).stall sl)) := State.TakesStall.exec_eq hc ha
    have hdrive : (u.unblanked sl).drive sl = { s.drive sl with blankingTimer := none } := u.unblanked_drive sl
    have hrun : ((u.unblanked sl).drive sl).run = some r := by rw [hdrive]; exact hr
    have hdriving : ((u.unblanked sl).drive sl).axis = .driving := by rw [hdrive]; exact ha
    rw [hexec]
    refine ⟨fun ho => ?_, fun ho hleg => ?_, fun ho hleg hf => ?_, fun ho => ?_, fun ho hj => ?_, fun ho hj he hw hq => ?_⟩
    · rw [State.stall_obstructed hrun ho]
      exact congrArg _ (settle_unblanked_driveOff (s := u) .relief hact)
    · rw [State.stall_learn hrun ho, if_pos hleg, hdrive]
      exact congrArg _ (settle_unblanked_driveOff (s := u) (.rawCount (s.drive sl).count) hact)
    · rw [State.stall_learn hrun ho, if_neg (by simp [hleg])]
      obtain ⟨hhome, hrest⟩ := settle_learnHome (s := u.unblanked sl) (sl := sl) (by rw [hdrive]; exact hf) hact
      exact ⟨_, rfl, by rw [hhome, hdrive]; rfl, hrest⟩
    · rw [State.stall_reference hrun ho]
      obtain ⟨hhome, hrest⟩ := settle_referenceHome (s := u.unblanked sl) (sl := sl) hact
      exact ⟨_, rfl, by rw [hhome, hdrive]; rfl, hrest⟩
    · rw [State.stall_relief hrun ho, State.rest_fault hdriving]
      rw [settle_faulted_idle (s := u.unblanked sl) hj hact, State.faulted, hdrive, State.unblanked, State.setDrive_setDrive]
      rfl
    · rw [State.stall_relief hrun ho]
      obtain ⟨hpassages, hfault, hset, hjob⟩ :=
        settle_faulted (s := u.unblanked sl) (sl := sl) hdriving (hq.of_views rfl) hj he hw hact
      have hblanked : SamePassages s (u.unblanked sl) := (s.withSense_passages n).trans (u.unblanked_passages sl)
      refine ⟨_, rfl, hblanked.trans hpassages, ?_, hset, hjob⟩
      rw [hfault, if_pos rfl, hdrive]
      rfl

end Sys2Proof.Machine
end

section
/-! PROOFS. O29: a LEARN that a gate refuses, and one that starts on an axis with every passage held. -/

namespace Sys2Proof.Machine

variable {s u : State} {sl : Slot}

/-! ### A LEARN taken (R129) -/

theorem slotOf_slotIndex (sl : Slot) : slotOf (slotIndex sl) = some sl := by cases sl <;> rfl

/-- A LEARN of the gateway, for the role and an axis of it (R129). -/
theorem State.learnFrame_taken {f : Frame} {r : Role} (hst : s.station = .run) (hr : s.role = some r) (hf : f.sender = 7)
    (hp : payload f = .learn (roleCode r) (slotIndex sl)) (hk : (kindOf r sl).isSome = true) : s.learnFrame f = s.takeLearn sl := by
  have hkind : (s.kindAt sl).isSome = true := by simpa [State.kindAt, hr] using hk
  simp [State.learnFrame, hp, hr, hst, hf, gatewayCode, slotOf_slotIndex, hkind]

/-- The step of such a LEARN. -/
theorem TakesFrame.exec_learnTaken {f : Frame} {rest : List RxFrame} {r : Role} (h : TakesFrame s kLearn false f rest)
    (hst : s.station = .run) (hr : s.role = some r) (hf : f.sender = 7) (hp : payload f = .learn (roleCode r) (slotIndex sl))
    (hk : (kindOf r sl).isSome = true) (n : Nat) :
    exec (.learnTaken n) s = .next (settle ((s.frameTaken n).takeLearn sl)) := by
  show Host.Outcome.next (settle ((s.withSense n).take kLearn true (fun t f _ => t.learnFrame f))) = _
  rw [h.take n]
  exact congrArg (fun e => Host.Outcome.next (settle e))
    (State.learnFrame_taken ((s.frameTaken_station n).trans hst) ((s.frameTaken_role n).trans hr) hf hp hk)

/-! ### A LEARN refused (R129, R132) -/

/-- The gate that refuses a LEARN, with the code of its outcome (R129, R159). -/
theorem State.learnGate_refuses [Decidable s.Parked]
    (h : ¬s.Parked ∨ s.isOccupied = true ∨ s.smon.level = .critical ∨ s.smon.level = .unknown) :
    ∃ o, s.learnGate = some o ∧ outcomeCode o = (if ¬s.Parked then 11 else if s.isOccupied = true then 12 else 13) ∧
      reasonByte o = 255 := by
  by_cases hp : s.Parked
  · have hstill : s.stillPark = true := s.stillPark_iff.mpr hp
    by_cases ho : s.isOccupied = true
    · exact ⟨.occupied, by simp [State.learnGate, hstill, ho], by simp [hp, ho, outcomeCode], rfl⟩
    · have hbars : s.supplyBars = true := State.supplyBars_eq_true ((h.resolve_left (not_not_intro hp)).resolve_left ho)
      exact ⟨.supply, by simp [State.learnGate, hstill, ho, hbars], by simp [hp, ho, outcomeCode], rfl⟩
  · have hmoves : s.stillPark = false := Bool.eq_false_iff.mpr (mt s.stillPark_iff.mp hp)
    exact ⟨.vehicle, by simp [State.learnGate, hmoves], by simp [hp, outcomeCode], rfl⟩

/-- The RESULT of a LEARN whose slot has an outcome without a decline reason (R120, R132). -/
theorem SceneEntry.result_learn (q : Nat) (l : Option Slot) {o : JobOutcome} (h : reasonByte o = 255) :
    SceneEntry.result { id := .learn, requester := q, learnSlot := l, slots := (PerSlot.all (.ended .noJob)).set sl (.ended o) } =
      { id := 14, requester := q, outcomes := (PerSlot.all 18).set sl (outcomeCode o), reasons := .all 255 } := by
  have hreasons : (PerSlot.all 255).set sl (reasonByte o) = .all 255 := by rw [h]; cases sl <;> rfl
  rw [← hreasons]
  cases sl <;> rfl

/-- The station with a frame in a general slot behind the others. -/
def State.withGeneral (s : State) (f : Frame) : State := { s with bus := { s.bus with general := s.bus.general ++ [f] } }

theorem State.withGeneral_passages (s : State) (f : Frame) : SamePassages s (s.withGeneral f) :=
  .ofClu ⟨rfl, rfl, rfl, rfl, rfl, rfl, rfl, rfl, rfl, rfl, rfl, rfl, rfl, rfl, rfl, rfl, fun _ => rfl⟩ rfl rfl rfl rfl

/-- A frame placed with nothing before it and a general slot free goes to that slot, and nothing else changes (R111, R151). -/
theorem State.placeOutgoing_at_once {f : Frame} (hb : s.busOpen = true) (hw : s.clu.waiting = []) (ho : s.mvc.outgoing = [])
    (hg : s.bus.general.length < 5) :
    s.placeOutgoing f = s.withGeneral f := by
  have hroom : s.bus.hasRoom = true := decide_eq_true hg
  have hempty : State.drainOutgoing Config.outgoingCapacity s = s := by simp [State.drainOutgoing, Config.outgoingCapacity, ho]
  have hopen : ∀ m : Mvc, State.busOpen { s with mvc := m } = true := fun _ => hb
  rw [State.placeOutgoing, hempty]
  simp only [State.drainOutgoing, Config.outgoingCapacity, Mvc.append, ho, List.nil_append, List.length_singleton, hopen, hw, hroom,
    List.isEmpty_nil, Bool.and_self, if_true, show ¬(1 > 4) by decide, if_false]
  have hmvc : { s.mvc with outgoing := [] } = s.mvc := by rw [← ho]
  rw [hmvc]
  rfl

/-- The RESULT of a LEARN that a gate refuses for an axis, with the code of the gate's outcome (R132, R159). -/
def refusedLearn (r : Role) (sl : Slot) (code : Nat) : Frame :=
  encode (roleCode r) (.result { id := 14, requester := 7, outcomes := (PerSlot.all 18).set sl code, reasons := .all 255 })

/-- A LEARN refused by a gate sends its RESULT, and does nothing else (R129). -/
theorem State.takeLearn_refused {o : JobOutcome} {r : Role} (hgate : s.learnGate = some o) (hreason : reasonByte o = 255)
    (hr : s.role = some r) (hb : s.busOpen = true) (hw : s.clu.waiting = []) (ho : s.mvc.outgoing = [])
    (hg : s.bus.general.length < 5) :
    s.takeLearn sl = (s.withGeneral (refusedLearn r sl (outcomeCode o)), []) := by
  simp only [State.takeLearn, hgate, State.sendResult, State.placeOutgoing_at_once hb hw ho hg, SceneEntry.result_learn _ _ hreason,
    State.sender_of_role hr]
  rfl

/-! ### A LEARN on an axis that holds every passage (R130, R131) -/

/-- The record of a learn with the entries of some pairs HELD, and whether its run has been handed. -/
def learnJob (pairs held : List Nat) (handed : Bool) : Job :=
  { Job.free with
    active := true, origin := .learn, speed := .creep, standing := .service, member := .active, handed := handed
    entries := pairs.map (fun q => ⟨q, if q ∈ held then .held else .needed⟩) }

/-- A station in which that learn has started on an axis, its run handed or not. -/
def State.learning (u : State) (sl : Slot) (pairs held : List Nat) (handed : Bool) : State :=
  (u.setJob sl (learnJob pairs held handed)).setDrive sl
    { u.drive sl with handed := if handed then some (learnJob pairs held handed).theRun else (u.drive sl).handed }

theorem State.learning_job (u : State) (sl x : Slot) (pairs held : List Nat) (handed : Bool) :
    (u.learning sl pairs held handed).job x = if sl = x then learnJob pairs held handed else u.job x := State.job_setJob u sl x _

theorem State.learning_drive (u : State) (sl x : Slot) (pairs held : List Nat) (handed : Bool) :
    (u.learning sl pairs held handed).drive x =
      if sl = x then
        { u.drive sl with handed := if handed then some (learnJob pairs held handed).theRun else (u.drive sl).handed }
      else u.drive x := State.drive_setDrive _ sl x _

/-- The learn's record, entered before its run is handed. -/
theorem State.setJob_learning (u : State) (sl : Slot) (pairs held : List Nat) :
    u.setJob sl (learnJob pairs held false) = u.learning sl pairs held false := by
  show u.setJob sl _ = { u.setJob sl _ with adu := u.adu.set sl (u.adu.get sl) }
  rw [PerSlot.set_get_self]
  rfl

/-- The record entered anew, before its run is handed. -/
theorem State.learning_setJob (u : State) (sl : Slot) (pairs held more : List Nat) :
    (u.learning sl pairs held false).setJob sl (learnJob pairs more false) = u.learning sl pairs more false := by
  rw [← State.setJob_learning, State.setJob_setJob, State.setJob_learning]

theorem learnJob_entryOf {pairs : List Nat} {p : Nat} (hp : p ∈ pairs) (held : List Nat) (handed : Bool) :
    (learnJob pairs held handed).entryOf p = some (if p ∈ held then .held else .needed) := by
  simp only [Job.entryOf, learnJob]
  induction pairs with
  | nil => cases hp
  | cons q qs ih =>
    by_cases hq : q = p
    · simp [hq]
    · have hin : p ∈ qs := (List.mem_cons.mp hp).resolve_left (Ne.symm hq)
      simpa [hq] using ih hin

/-- A NEEDED entry made HELD. -/
theorem learnJob_mark (pairs held : List Nat) (p : Nat) (handed : Bool) :
    (learnJob pairs held handed).mark p grantStatus = learnJob pairs (p :: held) handed := by
  simp only [Job.mark, learnJob, List.map_map]
  congr 1
  refine List.map_congr_left fun q _ => ?_
  by_cases hq : q = p
  · by_cases hh : p ∈ held <;> simp [hq, hh, grantStatus]
  · simp [hq]

/-- An entry that is HELD already. -/
theorem learnJob_held_again (pairs : List Nat) {held : List Nat} {p : Nat} (h : p ∈ held) (handed : Bool) :
    learnJob pairs (p :: held) handed = learnJob pairs held handed := by
  simp only [learnJob]
  congr 1
  refine List.map_congr_left fun q _ => ?_
  by_cases hq : q = p <;> simp [hq, h]

theorem learnJob_all_held {pairs held : List Nat} {handed : Bool} :
    (learnJob pairs held handed).entries.all (fun e => e.status == .held) = true ↔ ∀ q ∈ pairs, q ∈ held := by
  simp only [learnJob, List.all_map, List.all_eq_true, Function.comp_apply]
  refine forall₂_congr fun q _ => ?_
  by_cases hq : q ∈ held <;> simp [hq]

/-- The check hands the LEARN run once every entry is HELD (R131). -/
theorem Takes.learnCheck (u : State) (sl : Slot) (pairs held : List Nat) (handed : Bool) :
    Takes 1 [.learnCheck sl] (u.learning sl pairs held handed)
      (u.learning sl pairs held (handed || decide (∀ q ∈ pairs, q ∈ held))) := by
  have hjob : (u.learning sl pairs held handed).job sl = learnJob pairs held handed :=
    (u.learning_job sl sl pairs held handed).trans (if_pos rfl)
  refine .answer rfl ?_
  show Takes 0 ((u.learning sl pairs held handed).learnCheck sl).2 ((u.learning sl pairs held handed).learnCheck sl).1 _
  cases handed with
  | true =>
    have hdone : (u.learning sl pairs held true).learnCheck sl = (u.learning sl pairs held true, []) := by
      simp [State.learnCheck, hjob, learnJob]
    rw [hdone]
    exact .nil _
  | false =>
    by_cases hall : ∀ q ∈ pairs, q ∈ held
    · have hhands : (u.learning sl pairs held false).learnCheck sl = (u.learning sl pairs held true, []) := by
        rw [State.learnCheck, hjob, if_pos ⟨rfl, rfl, rfl, rfl, learnJob_all_held.mpr hall⟩, ← State.setJob_learning,
          State.setJob_setJob]
        rfl
      rw [hhands, decide_eq_true hall]
      exact .nil _
    · have hwaits : (u.learning sl pairs held false).learnCheck sl = (u.learning sl pairs held false, []) := by
        rw [State.learnCheck, hjob, if_neg (fun ⟨_, _, _, _, hheld⟩ => hall (learnJob_all_held.mp hheld))]
      rw [hwaits, decide_eq_false hall]
      exact .nil _

/-- A NEEDED entry of a pair whose view gives the axis the passage becomes HELD (R48). -/
theorem State.decideEntry_given {p : Nat} {v : View} (ha : (s.job sl).active = true) (he : (s.job sl).entryOf p = some .needed)
    (hv : s.view? p = some v) (hg : v.gives sl = true) (hw : v.claimWaits = false) :
    s.decideEntry sl p = (s.setJob sl ((s.job sl).mark p grantStatus), [.learnCheck sl]) := by
  cases ho : v.other with
  | self => simp [State.decideEntry, ha, he, hv, ho, hg]
  | peer r k b =>
    have hown : v.state = .own ∨ v.state = .ownWait := by simpa [View.gives, ho] using hg
    rw [State.decideEntry_peer ha he hv (by simp [View.peerRole, ho]), if_neg (by simp [hw])]
    rcases hown with hst | hst <;> rw [hst]

/-- The decision of one entry of the learn, with the check that it brings about: the entry is HELD from then on. -/
theorem Takes.decide_learn {pairs held : List Nat} {handed : Bool} {p : Nat} {v : View} (hp : p ∈ pairs) (hv : u.view? p = some v)
    (hg : v.gives sl = true) (hw : v.claimWaits = false) (hh : handed = true → ∀ q ∈ pairs, q ∈ held) :
    ∃ k ≤ 2, ∃ b, Takes k [.decide sl p] (u.learning sl pairs held handed) (u.learning sl pairs (p :: held) b) ∧
      (b = true → ∀ q ∈ pairs, q ∈ p :: held) := by
  have hjob : (u.learning sl pairs held handed).job sl = learnJob pairs held handed :=
    (u.learning_job sl sl pairs held handed).trans (if_pos rfl)
  have hentry := learnJob_entryOf hp held handed
  by_cases hin : p ∈ held
  · have hstays : u.learning sl pairs (p :: held) handed = u.learning sl pairs held handed := by
      simp only [State.learning, learnJob_held_again pairs hin]
    have hskip : handle (.decide sl p) (u.learning sl pairs held handed) = (u.learning sl pairs held handed, []) := by
      show (u.learning sl pairs held handed).decideEntry sl p = _
      rw [State.decideEntry, hjob, hentry, if_neg (by simp [hin])]
    refine ⟨1, by decide, handed, ?_, fun hb q hq => List.mem_cons_of_mem p (hh hb q hq)⟩
    rw [hstays]
    exact .skip rfl hskip
  · obtain rfl : handed = false := Bool.eq_false_iff.mpr fun hb => hin (hh hb p hp)
    rw [if_neg hin] at hentry
    have hgrants : handle (.decide sl p) (u.learning sl pairs held false) =
        (u.learning sl pairs (p :: held) false, [.learnCheck sl]) := by
      show (u.learning sl pairs held false).decideEntry sl p = _
      rw [State.decideEntry_given (s := u.learning sl pairs held false) (by rw [hjob]; rfl) (by rw [hjob, hentry]) hv hg hw, hjob,
        learnJob_mark, State.learning_setJob]
    refine ⟨2, le_rfl, decide (∀ q ∈ pairs, q ∈ p :: held), ?_, of_decide_eq_true⟩
    have hcheck := Takes.learnCheck u sl pairs (p :: held) false
    rw [Bool.false_or] at hcheck
    exact .answer rfl (by rw [hgrants]; exact hcheck)

/-- The decisions of several entries of the learn. -/
theorem Takes.decides_learn {pairs : List Nat} (ps : List Nat) {held : List Nat} {handed : Bool} (hps : ∀ p ∈ ps, p ∈ pairs)
    (hgiven : ∀ p ∈ ps, ∃ v, u.view? p = some v ∧ v.gives sl = true ∧ v.claimWaits = false)
    (hh : handed = true → ∀ q ∈ pairs, q ∈ held) :
    ∃ k ≤ 2 * ps.length, ∃ more b,
      Takes k (ps.map (fun p => Report.decide sl p)) (u.learning sl pairs held handed) (u.learning sl pairs more b) ∧
        (∀ q, q ∈ ps ∨ q ∈ held → q ∈ more) := by
  induction ps generalizing held handed with
  | nil => exact ⟨0, le_rfl, held, handed, .nil _, fun q hq => hq.resolve_left (by simp)⟩
  | cons p ps ih =>
    rw [List.forall_mem_cons] at hps hgiven
    obtain ⟨hp, hrest⟩ := hps
    obtain ⟨⟨v, hv, hg, hw⟩, hothers⟩ := hgiven
    obtain ⟨j, hj, b, hfirst, hb⟩ := Takes.decide_learn (u := u) (sl := sl) hp hv hg hw hh
    obtain ⟨k, hk, more, c, htakes, hmore⟩ := ih hrest hothers hb
    refine ⟨k + j, by rw [List.length_cons]; omega, more, c, hfirst.append htakes, fun q hq => hmore q ?_⟩
    rcases hq with hq | hq
    · rcases List.mem_cons.mp hq with rfl | hq
      · exact .inr List.mem_cons_self
      · exact .inl hq
    · exact .inr (List.mem_cons_of_mem p hq)

/-- A record whose entries are all HELD, whatever else is. -/
theorem learnJob_of_all_held {pairs held : List Nat} (h : ∀ q ∈ pairs, q ∈ held) (handed : Bool) :
    learnJob pairs held handed = { learnJob [] [] handed with entries := pairs.map (fun q => ⟨q, .held⟩) } := by
  simp only [learnJob]
  congr 1
  exact List.map_congr_left fun q hq => by rw [if_pos (h q hq)]

/-- What starts of a learn that has waited, where no cause has ended it. -/
theorem State.startQueued_learn (hj : (s.job sl).active = false) (hq : s.queuedAt sl = some ⟨.learn, none⟩) :
    s.startQueued sl = (s.setQueued sl none).startLearn sl := by
  simp [State.startQueued, hq, hj]

/-- A learn in the place of no job starts at once, finds every entry HELD, and hands its run (R109, R129 to R131). -/
theorem Takes.replaceLearn {o : JobOutcome} (hj : (s.job sl).active = false) (hq : s.queuedAt sl = none)
    (hgiven : ∀ v ∈ s.pairsOf sl, s.view? v.pair = some v ∧ v.gives sl = true ∧ v.claimWaits = false) :
    ∃ k ≤ 2 * (s.pairsOf sl).length + 4, ∃ held, (∀ q ∈ (s.pairsOf sl).map (·.pair), q ∈ held) ∧
      Takes k [.replaceJob sl .learn o] s ((s.setPin sl false).learning sl ((s.pairsOf sl).map (·.pair)) held true) := by
  let pairs := (s.pairsOf sl).map (·.pair)
  let w := s.setQueued sl (some ⟨.learn, none⟩)
  let u := s.setPin sl false
  have hviews : ∀ p ∈ pairs, ∃ v, u.view? p = some v ∧ v.gives sl = true ∧ v.claimWaits = false := fun p hp => by
    obtain ⟨v, hv, rfl⟩ := List.mem_map.mp hp
    exact ⟨v, hgiven v hv⟩
  have hstart : handle (.startQueued sl) w =
      (u.learning sl pairs [] false, pairs.map (fun p => Report.decide sl p) ++ [.learnCheck sl]) := by
    have hwaits : w.queuedAt sl = some ⟨.learn, none⟩ := by simp [w]
    have hlearn : w.startQueued sl = s.startLearn sl := by
      rw [State.startQueued_learn (s := w) hj hwaits, State.setQueued_setQueued, State.setQueued_self hq]
    have hbegin : s.startLearn sl =
        (u.setJob sl (learnJob pairs [] false), pairs.map (fun p => Report.decide sl p) ++ [.learnCheck sl]) := by
      simp [State.startLearn, learnJob, Job.begin, u, pairs, Job.free]
    rw [show handle (.startQueued sl) w = w.startQueued sl from rfl, hlearn, hbegin, State.setJob_learning]
  obtain ⟨k, hk, held, b, hdecides, hheld⟩ :=
    Takes.decides_learn (u := u) (sl := sl) pairs (held := []) (handed := false) (fun _ h => h) hviews (by simp)
  have hall : ∀ q ∈ pairs, q ∈ held := fun q hq => hheld q (.inl hq)
  have hcheck : Takes 1 [.learnCheck sl] (u.learning sl pairs held b) (u.learning sl pairs held true) := by
    have h := Takes.learnCheck u sl pairs held b
    rwa [decide_eq_true hall, Bool.or_true] at h
  have hqueued : Takes (1 + k + 1) [.startQueued sl] w (u.learning sl pairs held true) :=
    .answer rfl (by rw [hstart]; exact hdecides.append hcheck)
  have hend : Takes 1 [.endRequest sl o] w w := .skip rfl (State.endRequest_inactive hj)
  have hreplace : handle (.replaceJob sl .learn o) s = (w, [.endRequest sl o] ++ [.startQueued sl]) := by
    simp [handle, State.replaceJob, hq, w]
  have hlen : pairs.length = (s.pairsOf sl).length := List.length_map _
  exact ⟨1 + k + 1 + 1 + 1, by omega, held, hall, .answer rfl (by rw [hreplace]; exact hend.append hqueued)⟩

/-- The station with the scene record opened for the learn of an axis (R110, R129). -/
def State.learnOpened (s : State) (sl : Slot) : State :=
  s.openScene .learn 7 ((PerSlot.all (.ended .noJob)).set sl .pending) (some sl)

/-- A LEARN that no gate refuses, where no scene is active (R116, R129). -/
theorem State.takeLearn_opens (hg : s.learnGate = none) (ha : s.mvc.active = none) :
    s.takeLearn sl = (s.learnOpened sl, [.replaceJob sl .learn .superseded]) := by
  simp [State.takeLearn, hg, State.supersede_none ha, State.learnOpened, gatewayCode]

theorem State.learnGate_passes (hp : s.Parked) (ho : s.isOccupied = false) (hs : s.smon.level = .ok ∨ s.smon.level = .low) :
    s.learnGate = none := by
  simp [State.learnGate, s.stillPark_iff.mpr hp, ho, State.supplyBars_eq_false hs]

/-- The slots of a learn's scene record, as the statement has them. -/
theorem learnSlots_eq (sl : Slot) :
    (PerSlot.all (SlotOutcome.ended .noJob)).set sl .pending =
      PerSlot.tabulate (fun x => if x = sl then .pending else .ended .noJob) :=
  PerSlot.ext_get fun x => by
    rw [PerSlot.get_set, PerSlot.get_tabulate, PerSlot.get_all]
    simp only [eq_comm]

/-- The LEARN run, in the drive record that it is handed to (R106). -/
def Drive.givenLearn (d : Drive) : Drive :=
  { d with
    handed := some { origin := .learn, dir := .down, target := none, speed := .creep, secondLeg := false, pulsesLeft := none } }

theorem State.learning_drive_handed (u : State) (sl : Slot) (pairs held : List Nat) :
    (u.learning sl pairs held true).drive sl = (u.drive sl).givenLearn :=
  (u.learning_drive sl sl pairs held true).trans (if_pos rfl)

/-- The station with an axis's learn started and its run handed. -/
def State.learnStarted (s : State) (sl : Slot) (held : List Nat) : State :=
  ((s.learnOpened sl).setPin sl false).learning sl ((s.pairsOf sl).map (·.pair)) held true

theorem State.learnStarted_clu (s : State) (sl : Slot) (held : List Nat) : (s.learnStarted sl held).clu = s.clu := rfl

theorem State.learnStarted_active (s : State) (sl : Slot) (held : List Nat) :
    (s.learnStarted sl held).mvc.active =
      some { id := .learn, requester := 7, learnSlot := some sl
             slots := PerSlot.tabulate (fun x => if x = sl then .pending else .ended .noJob) } := by
  rw [← learnSlots_eq]
  rfl

/-- The record of a learn whose every entry is HELD, as the statement has it. -/
theorem State.learnStarted_job {held : List Nat} (h : ∀ q ∈ (s.pairsOf sl).map (·.pair), q ∈ held) :
    (s.learnStarted sl held).job sl =
      { Job.free with
        active := true, origin := .learn, speed := .creep, standing := .service, member := .active, handed := true,
        entries := (s.pairsOf sl).map (fun v => ⟨v.pair, .held⟩) } := by
  rw [State.learnStarted, State.learning_job, if_pos rfl, learnJob_of_all_held h]
  simp [learnJob, Job.free]

theorem State.learnStarted_drive (s : State) (sl : Slot) (held : List Nat) :
    (s.learnStarted sl held).drive sl = (s.drive sl).givenLearn := State.learning_drive_handed _ sl _ held

theorem State.learnStarted_others (s : State) (held : List Nat) {x : Slot} (hx : x ≠ sl) :
    (s.learnStarted sl held).job x = s.job x ∧ (s.learnStarted sl held).drive x = s.drive x := by
  constructor
  · rw [State.learnStarted, State.learning_job, if_neg hx.symm]
    rfl
  · rw [State.learnStarted, State.learning_drive, if_neg hx.symm]
    rfl

/-- The step of a LEARN that opens the scene record and starts the learn at once. -/
theorem State.settle_takeLearn (hg : s.learnGate = none) (ha : s.mvc.active = none) (hj : (s.job sl).active = false)
    (hq : s.queuedAt sl = none) (hlen : (s.pairsOf sl).length ≤ 10)
    (hgiven : ∀ v ∈ s.pairsOf sl, s.view? v.pair = some v ∧ v.gives sl = true ∧ v.claimWaits = false) :
    ∃ held, (∀ q ∈ (s.pairsOf sl).map (·.pair), q ∈ held) ∧
      settle (s.takeLearn sl) = (s.learnStarted sl held).takeActivity := by
  rw [State.takeLearn_opens hg ha]
  obtain ⟨k, hk, held, hheld, htakes⟩ :=
    Takes.replaceLearn (s := s.learnOpened sl) (sl := sl) (o := .superseded) hj hq hgiven
  have hbound : k ≤ reportBound := by
    have hsame : (s.learnOpened sl).pairsOf sl = s.pairsOf sl := rfl
    rw [hsame] at hk
    exact hk.trans (by unfold reportBound; omega)
  exact ⟨held, hheld, htakes.settle (e := (s.learnOpened sl, _)) hbound⟩

/-- What a LEARN taken leaves of the passages: its reports are local (R36). -/
theorem State.settle_takeLearn_passages (hg : s.learnGate = none) (ha : s.mvc.active = none) :
    SamePassages s (settle (s.takeLearn sl)) := by
  rw [State.takeLearn_opens hg ha]
  have hopen : SamePassages s (s.learnOpened sl) := (Evolves.scene (loose := False) _ _ _).passages
  have hlocal : AllLocal [Report.replaceJob sl .learn .superseded] := by simp [Report.isLocal]
  exact hopen.trans (settle_passages (e := (s.learnOpened sl, _)) hlocal)

/-! ### The statement -/

@[simp] theorem State.frameTaken_pairsOf (s : State) (n : Nat) (x : Slot) : (s.frameTaken n).pairsOf x = s.pairsOf x := by
  simp [State.pairsOf]

@[simp] theorem State.frameTaken_isOccupied (s : State) (n : Nat) : (s.frameTaken n).isOccupied = s.isOccupied := by
  simp [State.isOccupied]

/-- The frame taken changes nothing that a gate reads (R129). -/
theorem State.frameTaken_learnGate (s : State) (n : Nat) : (s.frameTaken n).learnGate = s.learnGate := by
  simp [State.learnGate, State.stillPark, State.supplyBars]

/-- Settles O29: a LEARN past the gates by carrying the decisions of its entries to their end (`Takes.replaceLearn`), one that a gate
refuses by the RESULT placed at once. -/
theorem learnStartsWhenHeld : Obligations.LearnStartsWhenHeld := by
  refine ⟨?_, ?_⟩
  · intro s n f rest r sl h hst hr hf hp hk hstill hpark hknown hocc hsupply hactive hj hq hlen hgiven
    let u := s.frameTaken n
    have hgate : u.learnGate = none :=
      (s.frameTaken_learnGate n).trans (State.learnGate_passes ⟨hstill, hpark, hknown⟩ hocc hsupply)
    have hnone : u.mvc.active = none := by rw [s.frameTaken_mvc n, hactive]
    have hviews : ∀ v ∈ u.pairsOf sl, u.view? v.pair = some v ∧ v.gives sl = true ∧ v.claimWaits = false := fun v hv => by
      rw [s.frameTaken_pairsOf n sl] at hv
      obtain ⟨hview, hgives, hflight, hcede⟩ := hgiven v hv
      exact ⟨(s.frameTaken_view? n v.pair).trans hview, hgives, View.claimWaits_false hflight hcede⟩
    obtain ⟨held, hheld, hsettle⟩ :=
      State.settle_takeLearn (s := u) hgate hnone ((congrArg Job.active (s.frameTaken_job n sl)).trans hj)
        ((s.frameTaken_queuedAt n sl).trans hq) (by rwa [s.frameTaken_pairsOf n sl]) hviews
    have hpassages := (State.frameTaken_passages h.head n).trans (State.settle_takeLearn_passages (sl := sl) hgate hnone)
    obtain ⟨-, -, -, hclu, -, hmvc, -⟩ := (u.learnStarted sl held).takeActivity_keeps
    refine ⟨_, h.exec_learnTaken hst hr hf hp hk n, hpassages, ?_⟩
    rw [hsettle]
    refine ⟨?_, ?_, ?_, ?_, fun x hx => ?_⟩
    · rw [hclu, State.learnStarted_clu, s.frameTaken_clu n]
    · rw [hmvc, State.learnStarted_active]
    · rw [(State.takeActivity_sameSlot _ sl).job, State.learnStarted_job hheld, s.frameTaken_pairsOf n sl]
    · rw [(State.takeActivity_sameSlot _ sl).drive, State.learnStarted_drive, s.frameTaken_drive n sl]
      rfl
    · obtain ⟨hjob, hdrive⟩ := u.learnStarted_others held hx
      rw [(State.takeActivity_sameSlot _ x).job, (State.takeActivity_sameSlot _ x).drive, hjob, hdrive]
      exact ⟨s.frameTaken_job n x, s.frameTaken_drive n x⟩
  · intro s n f rest r sl h hst hr hf hp hk hoff hwait hout hroom hgates code
    let u := s.frameTaken n
    obtain ⟨o, hgate, hcode, hreason⟩ := s.learnGate_refuses hgates
    have hbus : u.bus.busOff = none ∧ u.bus.general = s.bus.general := by simp [u, State.frameTaken, State.popRx, hoff]
    obtain ⟨hbusOff, hgeneral⟩ := hbus
    have hopen : u.busOpen = true := by simp [State.busOpen, hbusOff, show u.station = .run from (s.frameTaken_station n).trans hst]
    have hrefused : u.takeLearn sl = (u.withGeneral (refusedLearn r sl code), []) := by
      rw [State.takeLearn_refused ((s.frameTaken_learnGate n).trans hgate) hreason ((s.frameTaken_role n).trans hr) hopen
        (by rw [s.frameTaken_clu n, hwait]) (by rw [s.frameTaken_mvc n, hout]) (by rwa [hgeneral]), hcode]
    let t := (u.withGeneral (refusedLearn r sl code)).takeActivity
    have hsettle : settle (u.takeLearn sl) = t := by
      rw [hrefused]
      exact congrArg State.takeActivity (cascade_done _ _)
    obtain ⟨hadu, -, -, hclu, hframes, hmvc, -⟩ := (u.withGeneral (refusedLearn r sl code)).takeActivity_keeps
    have hlocal : AllLocal (u.takeLearn sl).2 := by rw [hrefused]; exact .nil
    have hpassages : SamePassages u t := by
      have hplaced : SamePassages u (u.takeLearn sl).1 := by
        rw [hrefused]
        exact u.withGeneral_passages _
      rw [← hsettle]
      exact hplaced.trans (settle_passages hlocal)
    refine ⟨t, ?_, (State.frameTaken_passages h.head n).trans hpassages, hclu.trans (s.frameTaken_clu n),
      hadu.trans (s.frameTaken_adu n), hmvc.trans (s.frameTaken_mvc n), ?_⟩
    · rw [h.exec_learnTaken hst hr hf hp hk n, hsettle]
    · rw [hframes, ← hgeneral]
      rfl

end Sys2Proof.Machine
end

section
/-! PROOFS. O27: a SCENE that a gate refuses sends its RESULT, and changes nothing else. -/

namespace Sys2Proof.Machine

variable {s : State} {sl : Slot}

/-! ### A SCENE taken (R115) -/

/-- The step of a SCENE whose frame the station takes. -/
theorem TakesFrame.exec_sceneTaken {f : Frame} {rest : List RxFrame} (h : TakesFrame s kScene false f rest) (n : Nat) :
    exec (.sceneTaken n) s = .next (settle ((s.frameTaken n).sceneFrame f)) := by
  show Host.Outcome.next (settle ((s.withSense n).take kScene true (fun t f _ => t.sceneFrame f))) = _
  rw [h.take n]

/-! ### The gates (R117) -/

/-- The gate that refuses a SCENE, with the code of its outcome (R117, R159). -/
theorem State.sceneGate_refuses [Decidable s.Parked] (h : ¬s.Parked ∨ s.smon.level = .critical ∨ s.smon.level = .unknown) :
    ∃ o, s.sceneGate = some o ∧ outcomeCode o = (if s.Parked then 13 else 11) ∧ reasonByte o = 255 := by
  by_cases hp : s.Parked
  · have hstill : s.stillPark = true := s.stillPark_iff.mpr hp
    have hbars : s.supplyBars = true := State.supplyBars_eq_true (h.resolve_left (not_not_intro hp))
    exact ⟨.supply, by simp [State.sceneGate, hstill, hbars], by simp [hp, outcomeCode], rfl⟩
  · have hmoves : s.stillPark = false := Bool.eq_false_iff.mpr (mt s.stillPark_iff.mp hp)
    exact ⟨.vehicle, by simp [State.sceneGate, hmoves], by simp [hp, outcomeCode], rfl⟩

/-- The frame taken changes nothing that a gate reads (R117). -/
theorem State.frameTaken_sceneGate (s : State) (n : Nat) : (s.frameTaken n).sceneGate = s.sceneGate := by
  simp [State.sceneGate, State.stillPark, State.supplyBars]

/-! ### The outcomes of a scene refused (R113, R120) -/

/-- The outcome of a slot under a refused scene: that of the gate where the scene gives it a target (R117). -/
def refusedOutcome (r : Role) (id : Nat) (o : JobOutcome) (sl : Slot) : JobOutcome :=
  if ((kindOf r sl).bind (sceneTarget id r)).isSome = true then o else .noJob

theorem State.sceneGates_refused {r : Role} {id : Nat} {o : JobOutcome} (hr : s.role = some r) (hg : s.sceneGate = some o) :
    s.sceneGates id = (s, allSlots.map (fun sl => .sceneOutcome sl .active (refusedOutcome r id o sl))) := by
  have htarget (sl : Slot) : (s.slotTarget sl id).isSome = ((kindOf r sl).bind (sceneTarget id r)).isSome := by
    rw [State.slotTarget_eq hr, targetOf]
    cases kindOf r sl <;> simp
  simp [State.sceneGates, hg, htarget, refusedOutcome]

/-- An outcome entered for the last pending slot sends the RESULT and closes the record (R120). -/
theorem State.enterOutcome_last {e : SceneEntry} {o : JobOutcome} (he : s.mvc.active = some e)
    (h : ∀ y, y ≠ sl → e.slots.get y ≠ .pending) :
    s.enterOutcome sl .active o = ((s.setScene none s.mvc.ending).sendResult { e with slots := e.slots.set sl (.ended o) }, []) := by
  have hc : SceneEntry.complete { e with slots := e.slots.set sl (.ended o) } = true := by
    rw [SceneEntry.complete_iff]
    intro y
    by_cases hy : sl = y
    · simp [hy]
    · simpa [PerSlot.get_set, hy] using h y (Ne.symm hy)
  simp [State.enterOutcome, he, hc]

/-- An outcome reported for a slot while another one is pending. -/
theorem Takes.outcomeOpen {e : SceneEntry} {y : Slot} (o : JobOutcome) (he : s.mvc.active = some e) (hy : y ≠ sl)
    (hp : e.slots.get y = .pending) :
    Takes 1 [.sceneOutcome sl .active o] s (s.setScene (some { e with slots := e.slots.set sl (.ended o) }) s.mvc.ending) :=
  .answer rfl (by
    rw [show handle (.sceneOutcome sl .active o) s = _ from State.enterOutcome_open he hy hp, he]
    exact .nil _)

/-- The outcome reported for the last pending slot. -/
theorem Takes.outcomeLast {e : SceneEntry} (o : JobOutcome) (he : s.mvc.active = some e)
    (h : ∀ y, y ≠ sl → e.slots.get y ≠ .pending) :
    Takes 1 [.sceneOutcome sl .active o] s
      ((s.setScene none s.mvc.ending).sendResult { e with slots := e.slots.set sl (.ended o) }) :=
  .answer rfl (by
    rw [show handle (.sceneOutcome sl .active o) s = _ from State.enterOutcome_last he h]
    exact .nil _)

/-- Outcomes entered for every slot of the active scene, one after the other (R113, R120). -/
theorem Takes.sceneOutcomes {e : SceneEntry} (he : s.mvc.active = some { e with slots := .all .pending }) (out : Slot → JobOutcome) :
    Takes 3 (allSlots.map (fun sl => .sceneOutcome sl .active (out sl))) s
      ((s.setScene none s.mvc.ending).sendResult { e with slots := PerSlot.tabulate (fun sl => .ended (out sl)) }) := by
  let e1 : SceneEntry := { e with slots := ⟨.ended (out .s0), .pending, .pending⟩ }
  let e2 : SceneEntry := { e with slots := ⟨.ended (out .s0), .ended (out .s1), .pending⟩ }
  have hfirst : Takes 1 [.sceneOutcome .s0 .active (out .s0)] s (s.setScene (some e1) s.mvc.ending) :=
    .outcomeOpen (y := .s1) _ he (by decide) rfl
  have hsecond : Takes 1 [.sceneOutcome .s1 .active (out .s1)] (s.setScene (some e1) s.mvc.ending)
      (s.setScene (some e2) s.mvc.ending) :=
    .outcomeOpen (s := s.setScene (some e1) s.mvc.ending) (e := e1) (y := .s2) _ rfl (by decide) rfl
  have hsettled : ∀ y, y ≠ .s2 → e2.slots.get y ≠ .pending := fun y hy => by
    cases y with
    | s0 | s1 => exact SlotOutcome.noConfusion
    | s2 => exact absurd rfl hy
  exact hfirst.append (hsecond.append (.outcomeLast (s := s.setScene (some e2) s.mvc.ending) (e := e2) _ rfl hsettled))

/-! ### The RESULT of a scene refused (R132, R159) -/

/-- The RESULT of a scene that a gate refuses, with the code of the gate's outcome. -/
def refusedScene (r : Role) (id q code : Nat) : Frame :=
  encode (roleCode r)
    (.result
      { id := id, requester := q, reasons := .all 255
        outcomes := PerSlot.tabulate (fun sl => if ((kindOf r sl).bind (sceneTarget id r)).isSome = true then code else 18) })

theorem SceneEntry.result_refused (r : Role) (id q : Nat) {o : JobOutcome} (h : reasonByte o = 255) :
    encode (roleCode r)
        (.result (SceneEntry.result
          { id := .scene id, requester := q, learnSlot := none
            slots := PerSlot.tabulate (fun sl => .ended (refusedOutcome r id o sl)) })) =
      refusedScene r id q (outcomeCode o) := by
  have hreason (sl : Slot) : reasonByte (refusedOutcome r id o sl) = 255 := by
    unfold refusedOutcome
    split
    · exact h
    · rfl
  have hcode (sl : Slot) : outcomeCode (refusedOutcome r id o sl) =
      if ((kindOf r sl).bind (sceneTarget id r)).isSome = true then outcomeCode o else 18 := apply_ite outcomeCode _ _ _
  simp only [SceneEntry.result, PerSlot.get_tabulate, SlotOutcome.code, hreason, hcode]
  rfl

/-- A SCENE refused by a gate with no other scene active sends its RESULT, and nothing else changes but the activity (R117, R120). -/
theorem State.settle_scene_refused {r : Role} {id q : Nat} {o : JobOutcome} (hgate : s.sceneGate = some o)
    (hreason : reasonByte o = 255) (hr : s.role = some r) (ha : s.mvc.active = none) (hb : s.busOpen = true)
    (hw : s.clu.waiting = []) (ho : s.mvc.outgoing = []) (hg : s.bus.general.length < 5) :
    settle (s.openScene (.scene id) q (.all .pending) none, [.sceneGates id]) =
      (s.withGeneral (refusedScene r id q (outcomeCode o))).takeActivity := by
  let u := s.openScene (.scene id) q (.all .pending) none
  let e : SceneEntry := { id := .scene id, requester := q, slots := .all .pending, learnSlot := none }
  have hclosed : u.setScene none u.mvc.ending = s := by
    have hmvc : { s.mvc with active := none } = s.mvc := by rw [← ha]
    show { s with mvc := { s.mvc with active := none } } = s
    rw [hmvc]
  have hanswers : Takes 4 [.sceneGates id] u
      ((u.setScene none u.mvc.ending).sendResult { e with slots := PerSlot.tabulate (fun sl => .ended (refusedOutcome r id o sl)) }) :=
    .answer rfl (by
      rw [show handle (.sceneGates id) u = _ from State.sceneGates_refused (s := u) hr hgate]
      exact Takes.sceneOutcomes (e := e) rfl _)
  rw [hanswers.settle (e := (u, _)) (by decide), hclosed, State.sendResult, State.sender_of_role hr,
    SceneEntry.result_refused r id q hreason, State.placeOutgoing_at_once hb hw ho hg]

/-! ### The statement -/

/-- Settles O27: the scene is opened, refused slot by slot, and its record closed by the RESULT within the step
(`State.settle_scene_refused`). -/
theorem sceneGateRefuses : Obligations.SceneGateRefuses := by
  intro s n f rest r id scope h hst hr hp hid hs hf hactive hoff hwait hout hroom parked hgates
  let u := s.frameTaken n
  obtain ⟨o, hgate, hcode, hreason⟩ := s.sceneGate_refuses hgates
  have hnone : u.mvc.active = none := by rw [s.frameTaken_mvc n, hactive]
  have hbus : u.bus.busOff = none ∧ u.bus.general = s.bus.general := by simp [u, State.frameTaken, State.popRx, hoff]
  obtain ⟨hbusOff, hgeneral⟩ := hbus
  have hrun : u.station = .run := (s.frameTaken_station n).trans hst
  have hrole : u.role = some r := (s.frameTaken_role n).trans hr
  have hopen : u.busOpen = true := by simp [State.busOpen, hbusOff, hrun]
  have hframe := State.sceneFrame_taken hrun hrole hp hid hs hf hnone
  let t := (u.withGeneral (refusedScene r id f.sender (outcomeCode o))).takeActivity
  have hsettle : settle (u.sceneFrame f) = t := by
    rw [hframe]
    exact State.settle_scene_refused ((s.frameTaken_sceneGate n).trans hgate) hreason hrole hnone hopen
      (by rw [s.frameTaken_clu n, hwait]) (by rw [s.frameTaken_mvc n, hout]) (by rwa [hgeneral])
  have hpassages : SamePassages u t :=
    (u.withGeneral_passages _).trans (settle_passages (e := (u.withGeneral _, [])) .nil)
  obtain ⟨hadu, -, -, hclu, hframes, hmvc, -⟩ :=
    (u.withGeneral (refusedScene r id f.sender (outcomeCode o))).takeActivity_keeps
  refine ⟨t, ?_, (State.frameTaken_passages h.head n).trans hpassages, hclu.trans (s.frameTaken_clu n),
    hadu.trans (s.frameTaken_adu n), hmvc.trans (s.frameTaken_mvc n), ?_⟩
  · rw [h.exec_sceneTaken n, hsettle]
  · rw [hframes, ← hgeneral, hcode]
    rfl

end Sys2Proof.Machine
end

section
/-! PROOFS. O53: a sample of the occupancy inputs debounces the seat, and ends the jobs that an occupied seat bars. -/

namespace Sys2Proof.Machine

variable {s t : State} {sl : Slot} {k : Kind} {o : JobOutcome}

/-! ### One sample (R144, R145) -/

/-- An input moves to the level of its newest `n` raw samples, where they agree (R144). -/
theorem debounce_eq (n : Nat) (d : Debounce) (raw : Bool) :
    debounce n d raw =
      ⟨if (raw :: d.samples).take n = List.replicate n raw then raw else d.stable, (raw :: d.samples).take n⟩ := by
  have hagree : ((raw :: d.samples).take n).length = n ∧ ((raw :: d.samples).take n).all (· == raw) = true ↔
      (raw :: d.samples).take n = List.replicate n raw := by
    simp only [List.eq_replicate_iff, List.all_eq_true, beq_iff_eq]
  by_cases h : (raw :: d.samples).take n = List.replicate n raw
  · by_cases hr : raw = d.stable
    · simp [debounce, hr]
    · obtain ⟨hlength, hall⟩ := hagree.mpr h
      rw [debounce, if_pos ⟨hlength, hall, hr⟩, if_pos h]
  · rw [debounce, if_neg (fun ⟨hlength, hall, _⟩ => h (hagree.mp ⟨hlength, hall⟩)), if_neg h]

theorem occupancyPeriod_eq (m : Mode) : occupancyPeriod m = if m = .active then 50 else 500 := by cases m <;> rfl

/-- The station with an occupancy sample debounced and the sample timer restarted (R145). -/
def State.seatSampled (s : State) (d : Debounce) : State :=
  { s with liu := { s.liu with occupancy := d, occupancyTimer := some (occupancyPeriod s.amon.mode) } }

/-- What a sample tells the blocks: of no change nothing, of a free seat the envelopes alone, of an occupied one the end requests too
(R24, R125, R140). -/
theorem State.sampleOccupancy_eq {d : Debounce} {pins : OccupancyPins}
    (hd : debounce occupancySamples s.liu.occupancy (rawOccupied pins) = d) :
    s.sampleOccupancy pins =
      if d.stable = s.liu.occupancy.stable then (s.seatSampled d, [])
      else if d.stable = true then
        ((s.seatSampled d).noteActivity.endOccupied.1,
          s.axisSlots.map Report.envelope ++ (s.seatSampled d).noteActivity.endOccupied.2)
      else ((s.seatSampled d).noteActivity, s.axisSlots.map Report.envelope ++ []) := by
  subst hd
  unfold State.sampleOccupancy
  simp only
  split
  · rfl
  · split
    · rfl
    · rfl

theorem State.endOccupied_evolves {loose : Prop} (s : State) : Evolves loose s s.endOccupied.1 := State.endWhere_evolves s _ _ _

/-- Beyond the debounced input and its timer, a sample is made of the updates of `Evolves`. -/
theorem State.sampleOccupancy_evolves {loose : Prop} {d : Debounce} {pins : OccupancyPins}
    (hd : debounce occupancySamples s.liu.occupancy (rawOccupied pins) = d) :
    Evolves loose (s.seatSampled d) (s.sampleOccupancy pins).1 := by
  rw [State.sampleOccupancy_eq hd]
  split
  · exact .refl _
  · split
    · exact (Evolves.activity _).trans (State.endOccupied_evolves _)
    · exact .activity _

theorem State.sampleOccupancy_local (s : State) (pins : OccupancyPins) : AllLocal (s.sampleOccupancy pins).2 := by
  have henvelopes : AllLocal (s.axisSlots.map Report.envelope) := .map _ _ fun _ => rfl
  rw [State.sampleOccupancy_eq rfl]
  split
  · exact .nil
  · split
    · exact (AllLocal.append _ _).mpr ⟨henvelopes, State.endWhere_local _ _ _ _⟩
    · exact (AllLocal.append _ _).mpr ⟨henvelopes, .nil⟩

/-- The passages through a whole sample. -/
theorem State.settle_sampleOccupancy_passages {d : Debounce} {pins : OccupancyPins}
    (hd : debounce occupancySamples s.liu.occupancy (rawOccupied pins) = d) (n : Nat) :
    SamePassages { s with liu := { s.liu with occupancy := d } } (settle ((s.withSense n).sampleOccupancy pins)) := by
  have hsampled : SamePassages { s with liu := { s.liu with occupancy := d } } ((s.withSense n).seatSampled d) :=
    .ofClu ⟨rfl, rfl, rfl, rfl, rfl, rfl, rfl, rfl, rfl, rfl, rfl, rfl, rfl, rfl, rfl, rfl, fun _ => rfl⟩ rfl rfl rfl rfl
  exact (hsampled.trans (State.sampleOccupancy_evolves (s := s.withSense n) hd).passages).trans
    (settle_passages (State.sampleOccupancy_local _ _))

/-- A sample that leaves the debounced state as it was changes the samples and the timer alone (R145). -/
theorem State.settle_sampleOccupancy_same {d : Debounce} {pins : OccupancyPins}
    (hd : debounce occupancySamples s.liu.occupancy (rawOccupied pins) = d) (hsame : d.stable = s.liu.occupancy.stable)
    (hquiet : s.amon.activityDue = false) : settle (s.sampleOccupancy pins) = s.seatSampled d := by
  rw [State.sampleOccupancy_eq hd, if_pos hsame, settle, cascade_done]
  exact State.takeActivity_quiet hquiet

/-! ### The jobs that an occupied seat ends (R125) -/

/-- Whether a job's target lies outside the seated range, by what the job is. -/
theorem State.outsideSeated_iff (s : State) (sl : Slot) (k : Kind) :
    s.outsideSeated sl k = true ↔
      (s.job sl).origin.isScene = true ∧ k ≠ .slide ∧ (∃ p, (s.job sl).permille = some p ∧ (params k).seated < p) ∨
        (∃ q x, (s.job sl).origin = .yield q ∧ (s.job sl).requested = some x ∧ k ≠ .slide ∧
          ((params k).seated : Int) < x * 1000 / (s.drive sl).span) ∨
        (s.job sl).origin = .learn := by
  cases ho : (s.job sl).origin with
  | scene id => cases hp : (s.job sl).permille <;> simp [State.outsideSeated, ho, hp, seatedKind_iff, JobOrigin.isScene]
  | yield q =>
    have hnorm (x : Int) : norm x (s.drive sl).span = x * 1000 / (s.drive sl).span := rfl
    cases hx : (s.job sl).requested <;> simp [State.outsideSeated, ho, hx, seatedKind_iff, JobOrigin.isScene, ← hnorm]
  | learn => simp [State.outsideSeated, ho]
  | jog => simp [State.outsideSeated, ho, JobOrigin.isScene]

theorem State.endOccupied_asksEnd (hk : s.kindAt sl = some k) :
    asksEnd s.endOccupied.2 sl .occupied ↔ (s.job sl).active = true ∧ s.outsideSeated sl k = true := State.endWhere_asksEnd hk

/-- Jobs that all drive, in a station alike in its jobs, its drives and its records. -/
theorem State.AllDrive.endsBraking (h : s.AllDrive) (hm : t.mvc.jobs = s.mvc.jobs) (hadu : t.adu = s.adu) (hrcs : t.rcs = s.rcs)
    (ha : (t.job sl).active = true) : t.EndsBraking sl := by
  have hj : t.job sl = s.job sl := by rw [State.job, hm]; rfl
  have hd : t.drive sl = s.drive sl := by rw [State.drive, hadu]; rfl
  exact ((h sl).1 (hj ▸ ha)).endsBraking.of_same hj hd hrcs

/-- The jobs that a test picks out are asked to end in one request, each slot once and with an active job. -/
theorem State.endWhere_reports (s : State) (o : JobOutcome) (f : Slot → Kind → Bool) (g : Slot → Kind → QueuedOrigin → Bool) :
    ∃ sls, (s.endWhere o f g).2 = [.endRequests sls o] ∧ sls.Nodup ∧ ∀ x ∈ sls, (s.job x).active = true := by
  refine ⟨_, rfl, List.Nodup.filter _ (by decide), fun x hx => ?_⟩
  have htest := (List.mem_filter.mp hx).2
  cases hk : s.kindAt x with
  | none => simp [hk] at htest
  | some k =>
    rw [hk] at htest
    exact (Bool.and_eq_true_iff.mp htest).1

/-- A cause put to jobs that all drive, behind envelopes for the axes: each job it is put to ends with it at the end of a brake period. -/
theorem State.AllDrive.settle_endWhere {f : Slot → Kind → Bool} {g : Slot → Kind → QueuedOrigin → Bool} {xs : List Slot}
    (h : s.AllDrive) (hadu : t.adu = s.adu) (hmvc : t.mvc = s.mvc) (hrcs : t.rcs = s.rcs) (hxs : xs.length ≤ 3)
    (hasked : asksEnd (t.endWhere o f g).2 sl o) :
    (settle ((t.endWhere o f g).1, xs.map Report.envelope ++ (t.endWhere o f g).2)).EndsWith sl o := by
  obtain ⟨sls, hreports, hnodup, hactive⟩ := t.endWhere_reports o f g
  have hjobs : (t.endWhere o f g).1.mvc.jobs = s.mvc.jobs := by simp [State.endWhere, hmvc]
  have hmem : sl ∈ sls := by simpa [asksEnd, hreports] using hasked
  have hnone : (t.endWhere o f g).1.NoneHolds := fun x => by
    rw [State.drive, show (t.endWhere o f g).1.adu = s.adu from hadu]
    exact (h x).2
  rw [hreports]
  exact settle_endsBraking hnone hxs hnodup (fun x hx => h.endsBraking hjobs hadu hrcs (hactive x hx)) sl hmem

/-- A sample that finds the seat occupied, where every job drives, ends each job whose target lies outside the seated range. -/
theorem State.settle_sampleOccupancy_ends {d : Debounce} {pins : OccupancyPins}
    (hd : debounce occupancySamples s.liu.occupancy (rawOccupied pins) = d) (hfree : s.liu.occupancy.stable = false)
    (hoccupied : d.stable = true) (hdrive : s.AllDrive) (ha : (s.job sl).active = true) (hk : s.kindAt sl = some k)
    (hout : s.outsideSeated sl k = true) (n : Nat) : (settle ((s.withSense n).sampleOccupancy pins)).EndsWith sl .occupied := by
  let u := ((s.withSense n).seatSampled d).noteActivity
  have heq : (s.withSense n).sampleOccupancy pins = (u.endOccupied.1, s.axisSlots.map Report.envelope ++ u.endOccupied.2) := by
    rw [State.sampleOccupancy_eq (s := s.withSense n) hd, if_neg, if_pos hoccupied]
    · rfl
    · rw [hoccupied]
      exact fun h => Bool.noConfusion (h.trans hfree)
  have hadu : u.adu = s.adu := State.noteActivity_adu _
  have hmvc : u.mvc = s.mvc := State.noteActivity_mvc _
  have hrcs : u.rcs = s.rcs := State.noteActivity_rcs _
  have hrole : u.role = s.role := State.noteActivity_role _
  have hasked : asksEnd u.endOccupied.2 sl .occupied := by
    have hkind : u.kindAt sl = some k := by rw [State.kindAt, hrole]; exact hk
    rw [State.endOccupied_asksEnd hkind]
    have hjob : u.job sl = s.job sl := by rw [State.job, hmvc]; rfl
    have hsame : u.drive sl = s.drive sl := by rw [State.drive, hadu]; rfl
    exact ⟨hjob ▸ ha, by rwa [State.outsideSeated, hjob, hsame]⟩
  rw [heq]
  exact hdrive.settle_endWhere hadu hmvc hrcs (List.length_filter_le _ _) hasked

/-! ### The statement -/

/-- Settles O53: the end requests come behind the envelopes of one step, as for the gateway record
(`State.AllDrive.settle_endWhere`), and the request is the test of each job against the seated range. -/
theorem occupancySampleDebounces : Obligations.OccupancySampleDebounces := by
  refine ⟨fun s pins n htimer hquiet => ?_, fun s sl k hk => ?_⟩
  · intro raw xs next
    have hd : debounce occupancySamples s.liu.occupancy (rawOccupied pins) = next := debounce_eq 2 _ _
    refine ⟨_, if_pos htimer, State.settle_sampleOccupancy_passages hd n, fun hsame => ?_, ?_⟩
    · rw [State.settle_sampleOccupancy_same (s := s.withSense n) hd hsame hquiet, State.seatSampled, occupancyPeriod_eq]
      rfl
    · intro sl k p hoccupied hfree hdrive ha hk hslide hscene hpermille hp
      have hout : s.outsideSeated sl k = true := (s.outsideSeated_iff sl k).mpr (.inl ⟨hscene, hslide, p, hpermille, hp⟩)
      exact State.settle_sampleOccupancy_ends hd hfree hoccupied hdrive ha hk hout n
  · rw [State.endOccupied_asksEnd hk, State.outsideSeated_iff]

end Sys2Proof.Machine
end

section
/-! PROOFS. O49: a supply sample sets the level and the recovery counter, and nothing that follows in its step changes them. -/

namespace Sys2Proof.Machine

variable {s t : State} {loose : Prop}

/-! ### One sample (R135, R136) -/

/-- From any level but CRITICAL the thresholds 9.0, 10.5 and 11.0 V decide, and from LOW a sample below 11.0 V stays LOW (R135). -/
theorem applySample_outside_critical {l : Level} (hl : l ≠ .critical) (n v : Nat) :
    applySample l n v =
      (if v < 90 then .critical else if v < 105 then .low else if v < 110 ∧ l = .low then .low else .ok, 0) := by
  cases l with
  | critical => exact absurd rfl hl
  | unknown | ok | low => simp [applySample, levelAfter]

/-- Only a sample below 9.0 V enters CRITICAL (R135). -/
theorem lt_of_applySample_enters_critical {l : Level} {n v : Nat} (hl : l ≠ .critical)
    (h : (applySample l n v).1 = .critical) : v < 90 := by
  by_contra hv
  rw [applySample_outside_critical hl, if_neg hv] at h
  split at h
  · cases h
  · split at h <;> cases h

/-- In CRITICAL a sample below 9.5 V starts the count again (R136). -/
theorem applySample_below_recovery (n : Nat) {v : Nat} (hv : v < 95) : applySample .critical n v = (.critical, 0) := if_pos hv

/-- In CRITICAL the first and the second sample in a row at 9.5 V or above are counted (R136). -/
theorem applySample_counts {n v : Nat} (hv : 95 ≤ v) (hn : n < 2) : applySample .critical n v = (.critical, n + 1) := by
  have hcount : n + 1 < 3 := by omega
  rw [applySample, if_neg hv.not_gt, if_pos hcount]

/-- The third sample in a row at 9.5 V or above leaves CRITICAL, for OK at 11.0 V or above and LOW below (R136). -/
theorem applySample_leaves_critical {v : Nat} (hv : 95 ≤ v) :
    applySample .critical 2 v = (if 110 ≤ v then .ok else .low, 0) := by
  rw [applySample, if_neg hv.not_gt, if_neg (by decide)]
  by_cases h : 110 ≤ v
  · rw [if_neg h.not_gt, if_pos h]
  · rw [if_pos (Nat.lt_of_not_le h), if_neg h]

/-- A monitor in CRITICAL before and after a sample, in the cases of R136. -/
theorem Smon.sampled_in_critical {a b : Smon} {v : Nat} (h : (b.level, b.recovery) = applySample a.level a.recovery v)
    (hl : a.level = .critical) :
    (v < 95 → b.level = .critical ∧ b.recovery = 0) ∧
    (95 ≤ v → a.recovery < 2 → b.level = .critical ∧ b.recovery = a.recovery + 1) ∧
    (95 ≤ v → a.recovery = 2 → b.recovery = 0 ∧ b.level = (if 110 ≤ v then .ok else .low)) := by
  rw [hl] at h
  refine ⟨fun hv => ?_, fun hv hn => ?_, fun hv hn => ?_⟩
  · exact Prod.mk.inj (h.trans (applySample_below_recovery _ hv))
  · exact Prod.mk.inj (h.trans (applySample_counts hv hn))
  · rw [hn] at h
    exact (Prod.mk.inj (h.trans (applySample_leaves_critical hv))).symm

/-! ### The sample in its step -/

/-- What a sample makes of the supply monitor, whether or not the drives are turned off with it (R98, R134). -/
theorem State.takeSample_smon (s : State) (period : Nat) :
    ((s.takeSample period).1.smon.level, (s.takeSample period).1.smon.recovery) =
      applySample s.smon.level s.smon.recovery (supplySample s.vsense) := by
  unfold State.takeSample
  simp only
  split
  · rw [State.stopDrives_smon]
  · rfl

/-- A sample that enters no CRITICAL level reports nothing (R137). -/
theorem State.takeSample_no_reports {period : Nat}
    (h : s.smon.level = .critical ∨ (applySample s.smon.level s.smon.recovery (supplySample s.vsense)).1 ≠ .critical) :
    (s.takeSample period).2 = [] := by
  unfold State.takeSample
  simp only
  rw [if_neg fun ⟨hcritical, hl⟩ => h.elim hl fun hn => hn hcritical]

/-- A supply monitor at CRITICAL that has counted no sample stays so while the supply is below 9.5 V, however often it is sampled in
the step (R134, R136). -/
theorem Evolves.countsNothing (h : Evolves loose s t) (hl : s.smon.level = .critical) (hr : s.smon.recovery = 0)
    (hv : supplySample s.vsense < 95) : t.smon.recovery = 0 := by
  induction h with
  | trans h _ a b => exact b (h.staysCritical hl hv) (a hl hr hv) (by rw [h.vsense]; exact hv)
  | moved s v st hv hm => obtain ⟨es, h⟩ := State.moveView_eq s v st; rw [h]; exact hr
  | activity s => simpa using hr
  | sample s m hb hu hm =>
    rw [hl, applySample_below_recovery _ hv] at hm
    exact (Prod.mk.inj hm).2
  | wake s =>
    obtain ⟨-, -, hrecovery, -⟩ := s.takeActivity_keeps
    exact hrecovery.trans hr
  | _ => exact hr

/-- The step of a sample ends with the level and the counter that the sample set: only an entry into CRITICAL has reports to answer, and
a further sample of that step finds the same supply below 9.0 V. -/
theorem State.settle_takeSample_smon (s : State) (period : Nat) :
    ((settle (s.takeSample period)).smon.level, (settle (s.takeSample period)).smon.recovery) =
      applySample s.smon.level s.smon.recovery (supplySample s.vsense) := by
  by_cases hquiet : s.smon.level = .critical ∨
      (applySample s.smon.level s.smon.recovery (supplySample s.vsense)).1 ≠ .critical
  case pos =>
    have hsettle : settle (s.takeSample period) = (s.takeSample period).1.takeActivity := by
      rw [settle, State.takeSample_no_reports hquiet]
      rfl
    obtain ⟨-, hlevel, hrecovery, -⟩ := (s.takeSample period).1.takeActivity_keeps
    rw [hsettle, hlevel, hrecovery, State.takeSample_smon]
  case neg =>
    obtain ⟨hl, hcritical⟩ := not_or.mp hquiet
    have hv : supplySample s.vsense < 90 := lt_of_applySample_enters_critical hl (not_not.mp hcritical)
    have hafter := applySample_critical (n := s.smon.recovery) hl hv
    obtain ⟨hlevel, hrecovery⟩ := Prod.mk.inj ((s.takeSample_smon period).trans hafter)
    have htaken : supplySample (s.takeSample period).1.vsense < 95 := by
      rw [(State.takeSample_evolves (loose := True) s period).vsense]
      omega
    have hrest : Evolves True (s.takeSample period).1 (settle (s.takeSample period)) := settle_evolves _ (.inl trivial)
    rw [hafter, hrest.staysCritical hlevel htaken, hrest.countsNothing hlevel hrecovery htaken]

/-- The step of a sample concerns no passage: its only report is local (R36). -/
theorem State.settle_takeSample_passages (s : State) (period : Nat) : SamePassages s (settle (s.takeSample period)) :=
  (State.takeSample_evolves (loose := False) s period).passages.trans (settle_passages (State.takeSample_local s period))

/-! ### The statement -/

/-- Settles O49: the level and the counter at the end of the step are those of the sample (`State.settle_takeSample_smon`), by the cases
of R135 and R136. -/
theorem sampleSetsLevel : Obligations.SampleSetsLevel := by
  refine ⟨fun s period hl _ => Smon.sampled_in_critical (s.takeSample_smon period) hl, fun s n htimer => ?_⟩
  let u := s.withSense n
  let t := settle (u.takeSample u.samplePeriod)
  have hsample : (t.smon.level, t.smon.recovery) = applySample s.smon.level s.smon.recovery (min n 255) :=
    u.settle_takeSample_smon u.samplePeriod
  have hpassages : SamePassages s t := (s.withSense_passages n).trans (u.settle_takeSample_passages u.samplePeriod)
  refine ⟨t, if_pos htimer, hpassages, ⟨fun hl => ?_, Smon.sampled_in_critical hsample⟩, fun hs hl => ?_⟩
  · exact (Prod.mk.inj (hsample.trans (applySample_outside_critical hl _ _))).symm
  · obtain ⟨-, hbound⟩ := hs
    obtain ⟨houtside, -⟩ := applySample_recovery s.smon.level s.smon.recovery (min n 255) hbound
    rw [← hsample] at houtside
    exact houtside hl

end Sys2Proof.Machine
end

section
/-! PROOFS. O51: the quiet timer's expiry, and the return to ACTIVE at an activity event. -/

namespace Sys2Proof.Machine

variable {s : State}

/-! ### The axes that keep the station ACTIVE (R141) -/

theorem State.anyMoving_iff (s : State) :
    s.anyMoving = true ↔
      ∃ sl : Slot, (s.drive sl).axis = .driving ∨ (s.drive sl).axis = .braking ∨ (s.drive sl).axis = .holding := by
  simp [State.anyMoving, mem_allSlots, or_assoc]

/-- The expiry of a running quiet timer in ACTIVE (R141). -/
theorem exec_quietTimerExpiry (hquiet : s.amon.quiet.isSome = true) (hmode : s.amon.mode = .active) :
    exec .quietTimerExpiry s =
      if s.anyMoving = true then .next { s with amon := { s.amon with quiet := some 30000 } }
      else .next { s with amon := { s.amon with mode := .quiet, quiet := none } } := if_pos ⟨hquiet, hmode⟩

/-! ### The return to ACTIVE (R143) -/

theorem Smon.driveSetEmpty_iff (m : Smon) : m.driveSetEmpty = true ↔ m.driveSet = .all false := by
  obtain ⟨_, _, ⟨a, b, c⟩, _⟩ := m
  simp [Smon.driveSetEmpty, PerSlot.all, and_assoc]

/-- The station back in ACTIVE with the quiet timer at 30 s and the sample timers at their fast periods, before the STATUS of that change
is built (R143). -/
def State.woken (s : State) : State :=
  { s with
    amon := { mode := .active, quiet := some 30000, activityDue := false }
    smon := if s.smon.driveSet = .all false then { s.smon with timer := some 200 } else s.smon
    liu := { s.liu with occupancyTimer := some 50 } }

/-- A station in QUIET that takes an activity event in SYNC or RUN returns to ACTIVE and builds a STATUS at once (R140, R143). -/
theorem State.takeActivity_wakes (hdue : s.amon.activityDue = true) (hmode : s.amon.mode = .quiet)
    (hst : s.station = .sync ∨ s.station = .run) : s.takeActivity = s.woken.sendStatus := by
  rw [State.takeActivity, if_pos hdue, hmode]
  simp only [if_pos hst, State.woken, s.smon.driveSetEmpty_iff]
  rfl

/-! ### A STOP for other stations -/

/-- The taking of a frame is an activity event that the AMON has still to take (R140). -/
theorem TakesFrame.frameTaken_amon {kind : Nat} {echo : Bool} {f : Frame} {rest : List RxFrame} (h : TakesFrame s kind echo f rest)
    (n : Nat) : (s.frameTaken n).amon = { s.amon with activityDue := true } :=
  State.noteActivity_awake (s := (s.withSense n).popRx) (.inr h.taking)

/-- Taking a frame changes nothing of the interface but its receive queue (R149). -/
@[simp] theorem State.frameTaken_bus (s : State) (n : Nat) : (s.frameTaken n).bus = { s.bus with rx := s.bus.rx.drop 1 } :=
  State.noteActivity_bus _

/-- A STOP whose scope leaves the role out ends no job (R124). -/
theorem State.stopFrame_outside {f : Frame} {r : Role} {scope : BitVec 6} (hrole : s.role = some r) (hp : payload f = .stop scope)
    (hscope : scope.getLsbD (roleCode r) = false) : s.stopFrame f = (s, []) := by
  simp [State.stopFrame, hp, hrole, inScope, hscope]

/-- The step of such a STOP takes the frame, and does nothing further. -/
theorem TakesFrame.exec_stopTaken_outside {f : Frame} {rest : List RxFrame} {r : Role} {scope : BitVec 6}
    (h : TakesFrame s kStop false f rest) (hrole : s.role = some r) (hp : payload f = .stop scope)
    (hscope : scope.getLsbD (roleCode r) = false) (n : Nat) :
    exec (.stopTaken n) s = .next (settle (s.frameTaken n, [])) := by
  show Host.Outcome.next (settle ((s.withSense n).take kStop true (fun t f _ => t.stopFrame f))) = _
  rw [h.take n, State.stopFrame_outside ((s.frameTaken_role n).trans hrole) hp hscope]

/-- In QUIET the step of a frame that has no effect of its own still returns the station to ACTIVE (R140, R143). -/
theorem TakesFrame.settle_wakes {kind : Nat} {echo : Bool} {f : Frame} {rest : List RxFrame} (h : TakesFrame s kind echo f rest)
    (hmode : s.amon.mode = .quiet) (n : Nat) : settle (s.frameTaken n, []) = (s.frameTaken n).woken.sendStatus := by
  have hamon := h.frameTaken_amon n
  have hst : (s.frameTaken n).station = .sync ∨ (s.frameTaken n).station = .run := by rw [s.frameTaken_station n]; exact h.taking
  calc settle (s.frameTaken n, [])
      = (s.frameTaken n).takeActivity := congrArg State.takeActivity (cascade_done _ _)
    _ = (s.frameTaken n).woken.sendStatus := State.takeActivity_wakes (by rw [hamon]) (by rw [hamon, hmode]) hst

/-! ### The statement -/

/-- Settles O51: the expiry by whether an axis moves or holds, and the STOP by the return to ACTIVE that any frame taken in QUIET
brings. -/
theorem quietTimerExpiry : Obligations.QuietTimerExpiry := by
  refine ⟨fun s hquiet hmode => ?_, fun s n f rest r scope h hrole hp hscope hmode hoff hattempt => ?_⟩
  · rw [← s.anyMoving_iff, exec_quietTimerExpiry hquiet hmode]
    exact ⟨fun hmoving => if_pos hmoving, fun hrest => if_neg hrest⟩
  · let u := s.frameTaken n
    have hsettle : settle (u, []) = u.woken.sendStatus := h.settle_wakes hmode n
    obtain ⟨hpassages, hclu, hmvc, hadu⟩ := settle_frameTaken h n
    have hstatus : u.woken.sendStatus.bus.status = some (encode (roleCode r) (.status u.woken.statusContent)) :=
      State.sendStatus_status ((s.frameTaken_role n).trans hrole) (by simpa [u, State.woken] using hoff)
        (by simpa [u, State.woken] using hattempt)
    refine ⟨settle (u, []), _, u.woken.statusContent, h.exec_stopTaken_outside hrole hp hscope n, hpassages, ?_,
      hsettle ▸ hstatus, rfl, rfl, ?_, ?_, ?_, ?_, hmvc, hadu, hclu⟩
    · rw [hsettle]; rfl
    · exact congrArg Pmon.seq (s.frameTaken_pmon n)
    · rw [hsettle, ← s.frameTaken_pmon n]; rfl
    · rw [hsettle, ← s.frameTaken_smon n]; rfl
    · rw [hsettle, ← s.frameTaken_liu n]; rfl

end Sys2Proof.Machine
end

section
/-! PROOFS. O30: a RESULT, and any frame in STANDSTILL, leave the receive queue and do nothing further. -/

namespace Sys2Proof.Machine

variable {s : State} {n k : Nat} {c : Instr} {f : Frame} {e : Bool} {rest : List RxFrame}

theorem State.popRx_eq_leaving {x : RxFrame} (h : s.bus.rx = x :: rest) : s.popRx = s.leaving rest := by
  simp [State.popRx, State.setBus, State.leaving, h]

/-! ### A RESULT (R149) -/

/-- A frame of a kind whose taking is no activity event, handed to its block (R149). -/
theorem TakesFrame.take_inactive (h : TakesFrame s k e f rest) (n : Nat) (act : State → Frame → Bool → Effect) :
    (s.withSense n).take k false act = act ((s.withSense n).leaving rest) f e := by
  have hclash : (!e && (s.withSense n).popRx.isClash f) = false := by
    cases e with
    | true => rfl
    | false => exact h.isClash n
  simp only [State.take, h.headOf n, h.taking' n, hclash, if_true, if_false, Bool.false_eq_true]
  rw [State.popRx_eq_leaving (s := s.withSense n) h.head]

/-- No block acts on a RESULT. -/
theorem exec_resultTaken_passed (h : TakesFrame s kResult e f rest) (hquiet : s.amon.activityDue = false) :
    exec .resultTaken s = .next (s.leaving rest) :=
  congrArg Host.Outcome.next
    ((congrArg settle (h.take_inactive s.vsense fun t _ _ => (t, []))).trans (settle_quiet (s.leaving rest) hquiet))

/-! ### STANDSTILL (R158, R172) -/

/-- A station in STANDSTILL, with a frame of a kind and an echo mark at the head of its receive queue. -/
structure StillFrame (s : State) (k : Nat) (e : Bool) (f : Frame) (rest : List RxFrame) : Prop where
  still : s.station = .standstill
  head : s.bus.rx = ⟨f, e⟩ :: rest
  kind : f.kind = k

theorem StillFrame.not_taking (h : StillFrame s k e f rest) : (s.leaving rest).taking = false := by
  simp [State.taking, State.leaving, h.still]

theorem StillFrame.takeEcho (h : StillFrame s k true f rest) (p : PassageKind) (act : State → View → Effect) :
    s.takeEcho k p act = (s.leaving rest, []) := by
  have hhead : s.headIs k true = some f := by simp [State.headIs, h.head, h.kind]
  simp only [State.takeEcho, hhead, State.popRx_eq_leaving h.head, h.not_taking, Bool.false_eq_true, if_false]

theorem StillFrame.takePeer (h : StillFrame s k false f rest) (act : State → View → Frame → Effect) :
    s.takePeer k act = (s.leaving rest, []) := by
  have hhead : s.headIs k false = some f := by simp [State.headIs, h.head, h.kind]
  simp only [State.takePeer, hhead, State.popRx_eq_leaving h.head, h.not_taking, Bool.false_eq_true, if_false]

theorem StillFrame.take (h : StillFrame s k e f rest) (active : Bool) (act : State → Frame → Bool → Effect) :
    s.take k active act = (s.leaving rest, []) := by
  have hhead : s.headOf k = some ⟨f, e⟩ := by simp [State.headOf, h.head, h.kind]
  simp only [State.take, hhead, State.popRx_eq_leaving h.head, h.not_taking, Bool.false_eq_true, if_false]

/-- The frame stays a frame of STANDSTILL whatever level VSENSE has. -/
theorem StillFrame.withSense (h : StillFrame s k e f rest) (n : Nat) : StillFrame (s.withSense n) k e f rest := ⟨h.still, h.head, h.kind⟩

/-- What a command that takes a frame comes to where the taking does nothing but remove the frame. -/
theorem next_settle_leaving {u : Effect} (hu : u = ((s.withSense n).leaving rest, [])) (hquiet : s.amon.activityDue = false) :
    (.next (settle u) : Host.Outcome State Fault Refusal) = .next ((s.withSense n).leaving rest) :=
  congrArg Host.Outcome.next (hu ▸ settle_quiet _ hquiet)

/-- The frames of other senders, in STANDSTILL. -/
theorem exec_takenKinds_still (hc : (c, k) ∈ takenKinds n) (h : StillFrame s k false f rest) (hquiet : s.amon.activityDue = false) :
    ∃ m, exec c s = .next ((s.withSense m).leaving rest) := by
  have hpassage : ∀ act, .next (settle ((s.withSense n).takePeer k act)) = Host.Outcome.next ((s.withSense n).leaving rest) :=
    fun act => next_settle_leaving ((h.withSense n).takePeer act) hquiet
  have hframe : ∀ m active act, .next (settle ((s.withSense m).take k active act)) = Host.Outcome.next ((s.withSense m).leaving rest) :=
    fun m active act => next_settle_leaving ((h.withSense m).take active act) hquiet
  simp only [takenKinds, List.mem_cons, Prod.mk.injEq, List.not_mem_nil, or_false] at hc
  rcases hc with ⟨rfl, rfl⟩ | ⟨rfl, rfl⟩ | ⟨rfl, rfl⟩ | ⟨rfl, rfl⟩ | ⟨rfl, rfl⟩ | ⟨rfl, rfl⟩ |
    ⟨rfl, rfl⟩ | ⟨rfl, rfl⟩ | ⟨rfl, rfl⟩ | ⟨rfl, rfl⟩
  case inl | inr.inl | inr.inr.inl | inr.inr.inr.inl => exact ⟨n, hpassage _⟩
  case inr.inr.inr.inr.inr.inr.inr.inr.inr => exact ⟨s.vsense, hframe s.vsense false _⟩
  all_goals exact ⟨n, hframe n _ _⟩

/-- The echoes of own passage frames, in STANDSTILL. -/
theorem exec_ownEcho_still
    (hc : (c, k) ∈ [(Instr.ownClaimEcho n, kClaim), (.ownCedeEcho n, kCede), (.ownDeclineEcho n, kDecline), (.ownStakeEcho n, kStake)])
    (h : StillFrame s k true f rest) (hquiet : s.amon.activityDue = false) :
    exec c s = .next ((s.withSense n).leaving rest) := by
  simp only [List.mem_cons, Prod.mk.injEq, List.not_mem_nil, or_false] at hc
  rcases hc with ⟨rfl, rfl⟩ | ⟨rfl, rfl⟩ | ⟨rfl, rfl⟩ | ⟨rfl, rfl⟩ <;>
    exact next_settle_leaving ((h.withSense n).takeEcho _ _) hquiet

/-- Settles O30: a RESULT is handed to no block, and in STANDSTILL every way of taking a frame only removes it. -/
theorem framesPassedOver : Obligations.FramesPassedOver := by
  refine ⟨fun s f rest h hquiet => ?_, fun s n k c f e rest hc hst hhead hk hquiet => ?_⟩
  · exact h.elim (exec_resultTaken_passed · hquiet) (exec_resultTaken_passed · hquiet)
  · rcases hc with ⟨hc, rfl⟩ | ⟨hc, rfl⟩
    · obtain ⟨m, hexec⟩ := exec_takenKinds_still hc ⟨hst, hhead, hk⟩ hquiet
      exact ⟨_, hexec, rfl⟩
    · exact ⟨_, exec_ownEcho_still hc ⟨hst, hhead, hk⟩ hquiet, rfl⟩

end Sys2Proof.Machine
end

section
/-! PROOFS. O31, O33 and O35: the receive filter, the choice of the frame for a transmission attempt, and a frame that completes. -/

namespace Sys2Proof.Machine

variable {s : State}

/-! ### The filter (R148) -/

theorem lengthOfKind_of_not_kind {k : Nat} (h : ¬(1 ≤ k ∧ k ≤ 10)) : lengthOfKind k = none :=
  (if_neg (by rintro rfl; exact h (by decide))).trans (if_neg h)

/-- Only a frame of the protocol's kinds, with its kind's length, from no reserved sender passes the filter (R148): what
`passesFilter_of_wellFormed` asks is needed. -/
theorem passesFilter_wellFormed {f : BusFrame} (h : passesFilter f = true) :
    1 ≤ f.ident.toNat / 128 ∧ f.ident.toNat / 128 ≤ 10 ∧ f.ident.toNat / 16 % 8 ≠ 6 ∧ f.ident.toNat % 16 = 0 ∧
      f.data.length = (if f.ident.toNat / 128 = 9 then 24 else 8) ∧ f.fdData11 = true := by
  simp only [passesFilter, Frame.sender, Frame.kind, Bool.and_eq_true, decide_eq_true_eq, beq_iff_eq] at h
  obtain ⟨⟨⟨hfd, hsender⟩, hident⟩, hlen⟩ := h
  have hkind : 1 ≤ f.ident.toNat / 128 ∧ f.ident.toNat / 128 ≤ 10 := by
    by_contra hno
    simp [lengthOfKind_of_not_kind hno] at hlen
  rw [lengthOfKind_of_kind hkind.1 hkind.2] at hlen
  exact ⟨hkind.1, hkind.2, of_decide_eq_true hsender, hident, (Option.some.inj hlen).symm, hfd⟩

theorem execFrameReceived_filtered {f : BusFrame} (h : ¬passesFilter f = true) : exec (.frameReceived f) s = .next s :=
  if_neg fun hr => h hr.2.2

/-- Settles O31: by whether the frame passes the filter; one that passes is the frame of O32. -/
theorem filterDrops : Obligations.FilterDrops := by
  intro f s kind dropped
  refine ⟨fun hdrop => execFrameReceived_filtered fun hpass => ?_, fun hkept hst hoff hattempt hroom => ?_⟩
  · obtain ⟨hlow, hhigh, hsender, hident, hlen, hfd⟩ := passesFilter_wellFormed hpass
    rcases hdrop with h | h | h | h | h | h
    · exact absurd hlow (by omega)
    · exact absurd hhigh (by omega)
    · exact hsender h
    · exact h hident
    · exact h hlen
    · exact absurd hfd (by simp [h])
  · simp only [dropped, not_or, not_le, ne_eq, not_not, Bool.not_eq_false] at hkept
    obtain ⟨hlow, hhigh, hsender, hident, hlen, hfd⟩ := hkept
    exact (frameEntersQueue f s (Nat.one_le_iff_ne_zero.mpr hlow) (Nat.le_of_lt_succ hhigh) hsender hident hlen hfd hattempt).1
      hst hoff hroom

/-! ### A transmission attempt (R147, R151) -/

/-- Where the station may send (R147, R156, R158). -/
theorem State.busOpen_iff (s : State) : s.busOpen = true ↔ (s.station = .sync ∨ s.station = .run) ∧ s.bus.busOff = none := by
  simp [State.busOpen]

/-- The two ways of a transmission attempt with none in progress. -/
theorem execTransmissionAttempt_idle (hattempt : s.bus.attempt = none) :
    exec .transmissionAttempt s =
      if s.busOpen = true ∧ s.bus.rx.length < 8 then
        .next { s with bus := { s.bus with attempt := lowestFrame (s.bus.general ++ s.bus.status.toList) } }
      else .next s := by
  simp only [exec, execTransmissionAttempt, hattempt, true_and]
  rfl

/-- With nothing to send, the station that may send starts no attempt. -/
theorem State.attempt_nothing (hattempt : s.bus.attempt = none) (hnone : s.bus.general ++ s.bus.status.toList = []) :
    { s with bus := { s.bus with attempt := lowestFrame (s.bus.general ++ s.bus.status.toList) } } = s := by
  rw [hnone, lowestFrame, ← hattempt]

/-- Settles O33: the frame of lowest identifier is chosen, first of its equals, where an attempt may be made. -/
theorem attemptOffersLowest : Obligations.AttemptOffersLowest := by
  refine ⟨fun s hst hoff hattempt hroom hsome => ?_, fun s hno hattempt => ?_⟩
  · obtain ⟨f, a, b, hf, hsplit, hbefore, hbehind⟩ := lowestFrame_split hsome
    refine ⟨f, a, b, ?_, hsplit, hbefore, hbehind⟩
    rw [execTransmissionAttempt_idle hattempt, if_pos ⟨s.busOpen_iff.mpr ⟨hst, hoff⟩, Nat.lt_succ_of_le hroom⟩, hf]
  · rw [execTransmissionAttempt_idle hattempt]
    split
    next hmay =>
      obtain ⟨hopen, hroom⟩ := hmay
      obtain ⟨hst, hoff⟩ := s.busOpen_iff.mp hopen
      rcases hno with ⟨hsync, hrun⟩ | hbusOff | hfull | hnone
      · exact (hst.elim hsync hrun).elim
      · simp [hoff] at hbusOff
      · exact absurd hroom (Nat.not_lt.mpr hfull)
      · rw [State.attempt_nothing hattempt hnone]
    next => rfl

/-! ### A frame that completes (R147, R151, R154) -/

/-- The transmit side after its frame has completed, for a STATUS and for another frame alike. -/
theorem Bif.completed_eq (b : Bif) (f : Frame) :
    b.completed f =
      { b with
        attempt := none
        general := if f.kind = kStatus then b.general else b.general.erase f
        status := if f.kind = kStatus then b.statusBeside else b.status
        statusBeside := if f.kind = kStatus then none else b.statusBeside } := by
  by_cases hk : f.kind = kStatus <;> simp [Bif.completed, hk]

/-- Settles O35: the completed transmit side, with the echo behind the receive queue. -/
theorem completedFrameEchoes : Obligations.CompletedFrameEchoes := by
  intro s f hf
  simp only [exec, execFrameCompleted, hf, Bif.completed_eq]
  rfl

end Sys2Proof.Machine
end

section
/-! PROOFS. O40: what a receiver reads from a frame is what its sender put in. -/

namespace Sys2Proof.Machine

/-! ### The identifier (R146) -/

/-- The kind code of the frame that carries a payload. -/
def Payload.kindCode : Payload → Nat
  | .stop _ => kStop
  | .stake _ => kStake
  | .claim _ _ => kClaim
  | .cede _ => kCede
  | .decline _ _ => kDecline
  | .scene _ _ => kScene
  | .learn _ _ => kLearn
  | .vehicle _ _ => kVehicle
  | .status _ => kStatus
  | .result _ => kResult
  | .unknown => 0

theorem encode_ident (sender : Nat) (p : Payload) : (encode sender p).ident = identOf p.kindCode sender := by cases p <;> rfl

theorem Payload.kindCode_le (p : Payload) : p.kindCode ≤ 10 := by cases p <;> exact Nat.le_of_ble_eq_true rfl

theorem Payload.wf.kindCode_pos {p : Payload} (h : p.wf) : 1 ≤ p.kindCode := by
  cases p
  case unknown => exact h.elim
  all_goals exact Nat.le_of_ble_eq_true rfl

/-- Kind and sender stand side by side in the identifier, above four bits that are 0. -/
theorem encode_ident_toNat {sender : Nat} (hs : sender < 8) (p : Payload) :
    (encode sender p).ident.toNat = p.kindCode * 128 + sender * 16 := by
  have hkind := p.kindCode_le
  rw [encode_ident, identOf, BitVec.toNat_ofNat, Nat.mod_eq_of_lt (by omega)]

theorem encode_kind {sender : Nat} (hs : sender < 8) (p : Payload) : (encode sender p).kind = p.kindCode := by
  rw [Frame.kind, encode_ident_toNat hs]
  omega

theorem encode_sender {sender : Nat} (hs : sender < 8) (p : Payload) : (encode sender p).sender = sender := by
  rw [Frame.sender, encode_ident_toNat hs]
  omega

/-- Each kind has the length of its layout (R148, R159). -/
theorem encode_length (sender : Nat) {p : Payload} (h : p.wf) :
    (encode sender p).data.length = if p.kindCode = 9 then 24 else 8 := by
  cases p
  case unknown => exact h.elim
  all_goals rfl

/-- The filter of a receiver passes a frame of any sender code but 6 (R148). -/
theorem passesFilter_encode {sender : Nat} {p : Payload} (hs : sender < 8) (h6 : sender ≠ 6) (h : p.wf) :
    passesFilter ⟨true, (encode sender p).ident, (encode sender p).data⟩ = true := by
  have hkind : (encode sender p).ident.toNat / 128 = p.kindCode := encode_kind hs p
  have hsender : (encode sender p).ident.toNat / 16 % 8 = sender := encode_sender hs p
  have hlow : (encode sender p).ident.toNat % 16 = 0 := by
    rw [encode_ident_toNat hs]
    omega
  refine passesFilter_of_wellFormed ?_ ?_ ?_ hlow ?_ rfl <;> simp only [hkind, hsender]
  · exact h.kindCode_pos
  · exact p.kindCode_le
  · exact h6
  · exact encode_length sender h

/-! ### Codes and bytes (R159) -/

theorem standingOf_standingCode (x : Standing) : standingOf (standingCode x) = some x := by cases x <;> rfl

theorem reasonOf_reasonCode (x : Reason) : reasonOf (reasonCode x) = some x := by cases x <;> rfl

theorem speedOf_speedCode (x : SpeedClass) : speedOf (speedCode x) = some x := by cases x <;> rfl

theorem axisOf_axisCode (x : AxisState) : axisOf (axisCode x) = x := by cases x <;> rfl

theorem levelOf_levelCode (x : Level) : levelOf (levelCode x) = x := by cases x <;> rfl

theorem axisCode_lt (x : AxisState) : axisCode x < 8 := by cases x <;> decide

theorem levelCode_lt (x : Level) : levelCode x < 4 := by cases x <;> decide

/-- A byte holds a number below 256. -/
theorem byteOf_toNat {n : Nat} (h : n < 256) : (byteOf n).toNat = n := by
  rw [byteOf, BitVec.toNat_ofNat, Nat.mod_eq_of_lt h]

theorem bitOf_eq {n k : Nat} {b : Bool} (h : n / 2 ^ k % 2 = b.toNat) : bitOf n k = b := by
  rw [bitOf, h]
  cases b <;> rfl

/-! ### The frames of two bytes -/

section
variable {f : Frame}

theorem payload_stop (h : f.kind = kStop) : payload f = .stop (BitVec.ofNat 6 (f.byte 0)) := by
  simp [payload, h]

theorem payload_stake (h : f.kind = kStake) : payload f = .stake (f.byte 0) := by
  simp [payload, h, kStop, kStake]

theorem payload_cede (h : f.kind = kCede) : payload f = .cede (f.byte 0) := by
  simp [payload, h, kStop, kStake, kClaim, kCede]

theorem payload_scene (h : f.kind = kScene) : payload f = .scene (f.byte 0 % 16) (BitVec.ofNat 6 (f.byte 1)) := by
  simp [payload, h, kStop, kStake, kClaim, kCede, kDecline, kScene]

theorem payload_learn (h : f.kind = kLearn) : payload f = .learn (f.byte 0) (f.byte 1) := by
  simp [payload, h, kStop, kStake, kClaim, kCede, kDecline, kScene, kLearn]

theorem payload_result (h : f.kind = kResult) :
    payload f =
      .result { id := f.byte 0, requester := f.byte 1, outcomes := ⟨f.byte 2, f.byte 3, f.byte 4⟩,
                reasons := ⟨f.byte 5, f.byte 6, f.byte 7⟩ } := by
  simp [payload, h, kStop, kStake, kClaim, kCede, kDecline, kScene, kLearn, kVehicle, kStatus, kResult]

end

/-! ### A STATUS (R155, R159) -/

/-- The flag byte of a slot record. -/
def SlotStatus.flags (r : SlotStatus) : Nat :=
  axisCode r.axis + 8 * r.lock.toNat + 16 * r.referenced.toNat + 32 * r.disabled.toNat + 64 * (decide (r.dir = .up)).toNat

/-- What the flag byte of a slot record reads as. -/
theorem SlotStatus.flags_read (r : SlotStatus) :
    r.flags < 256 ∧ axisOf (r.flags % 8) = r.axis ∧ bitOf r.flags 3 = r.lock ∧ bitOf r.flags 4 = r.referenced ∧
      bitOf r.flags 5 = r.disabled ∧ bitOf r.flags 6 = decide (r.dir = .up) := by
  have haxis := axisCode_lt r.axis
  have hlock := r.lock.toNat_le
  have href := r.referenced.toNat_le
  have hdis := r.disabled.toNat_le
  have hdir := (decide (r.dir = .up)).toNat_le
  have hlow : r.flags % 8 = axisCode r.axis := by unfold flags; omega
  refine ⟨by unfold flags; omega, by rw [hlow, axisOf_axisCode], ?_, ?_, ?_, ?_⟩ <;> exact bitOf_eq (by unfold flags; omega)

theorem dirOf_up (d : Dir) : (if decide (d = .up) then Dir.up else .down) = d := by cases d <;> rfl

/-- An interval of a slot record is read as it was written (R159). -/
theorem intervalOf_wf {i : Interval} (h : i.wf) : intervalOf i.low.toNat i.high.toNat = i := by
  obtain ⟨hlow, hle, hhigh⟩ := h
  have hlowMin : min i.low.toNat 1000 = i.low.toNat := by omega
  have hhighMin : min i.high.toNat 1000 = i.high.toNat := by omega
  rw [intervalOf_eq, hlowMin, hhighMin, if_neg (by omega), Int.toNat_of_nonneg hlow, Int.toNat_of_nonneg (hlow.trans hle)]

/-- A byte of a stretch of a frame's data. -/
theorem Frame.byte_of_stretch {f : Frame} {o n : Nat} {bs : List Byte} (h : (f.data.drop o).take n = bs) {i : Nat} (hi : i < n) :
    f.byte (o + i) = (bs.getD i 0).toNat := by
  simp [Frame.byte, ← h, List.getElem?_drop, hi]

/-- The record of a slot is read where its five bytes stand. -/
theorem slotAt_of_slotBytes {f : Frame} {o : Nat} {r : SlotStatus} (hr : r.interval.wf) (h : (f.data.drop o).take 5 = slotBytes r) :
    slotAt f o = r := by
  have ⟨_, hle, htop⟩ := hr
  obtain ⟨hflags, haxis, hlock, href, hdis, hdir⟩ := r.flags_read
  have hbyte : ∀ n, n ≤ 1000 → (byteOf (n % 256)).toNat + 256 * (byteOf (n / 256)).toNat = n := fun n hn => by
    rw [byteOf_toNat (by omega), byteOf_toNat (by omega)]
    omega
  have h0 : f.byte o = r.flags := (Frame.byte_of_stretch h (i := 0) (by decide)).trans (byteOf_toNat hflags)
  have hlow : f.byte (o + 1) + 256 * f.byte (o + 2) = r.interval.low.toNat := by
    rw [Frame.byte_of_stretch h (by decide), Frame.byte_of_stretch h (by decide)]
    exact hbyte _ (by omega)
  have hhigh : f.byte (o + 3) + 256 * f.byte (o + 4) = r.interval.high.toNat := by
    rw [Frame.byte_of_stretch h (by decide), Frame.byte_of_stretch h (by decide)]
    exact hbyte _ (by omega)
  simp only [slotAt, h0, hlow, hhigh, haxis, hlock, href, hdis, hdir, dirOf_up, intervalOf_wf hr]

/-- The first byte of a STATUS: its sequence number and the mode. -/
def StatusContent.modeByte (c : StatusContent) : Nat := c.seq + 16 * (decide (c.mode = .quiet)).toNat

theorem StatusContent.modeByte_read {c : StatusContent} (hseq : c.seq < 16) :
    c.modeByte < 256 ∧ c.modeByte % 16 = c.seq ∧ bitOf c.modeByte 4 = decide (c.mode = .quiet) := by
  have hmode := (decide (c.mode = .quiet)).toNat_le
  exact ⟨by unfold modeByte; omega, by unfold modeByte; omega, bitOf_eq (by unfold modeByte; omega)⟩

theorem modeOf_quiet (m : Mode) : (if decide (m = .quiet) then Mode.quiet else .active) = m := by cases m <;> rfl

/-- The second byte of a STATUS: the flags of the station and the supply level. -/
def StatusContent.flags (c : StatusContent) : Nat :=
  c.occupied.toNat + 2 * c.unheard.toNat + 4 * c.conflict.toNat + 8 * c.clash.toNat + 16 * c.vehicleUnknown.toNat
    + 32 * levelCode c.level

theorem StatusContent.flags_read (c : StatusContent) :
    c.flags < 256 ∧ bitOf c.flags 0 = c.occupied ∧ bitOf c.flags 1 = c.unheard ∧ bitOf c.flags 2 = c.conflict ∧
      bitOf c.flags 3 = c.clash ∧ bitOf c.flags 4 = c.vehicleUnknown ∧ levelOf (c.flags / 32 % 4) = c.level := by
  have hocc := c.occupied.toNat_le
  have hun := c.unheard.toNat_le
  have hconf := c.conflict.toNat_le
  have hclash := c.clash.toNat_le
  have hveh := c.vehicleUnknown.toNat_le
  have hlevel := levelCode_lt c.level
  have hhigh : c.flags / 32 % 4 = levelCode c.level := by unfold flags; omega
  refine ⟨by unfold flags; omega, ?_, ?_, ?_, ?_, ?_, by rw [hhigh, levelOf_levelCode]⟩ <;> exact bitOf_eq (by unfold flags; omega)

/-- Three bytes hold a set of 24 pairs, lowest first. -/
theorem holdSet_bytes (h : BitVec 24) :
    BitVec.ofNat 24 ((byteOf (h.toNat % 256)).toNat + 256 * (byteOf (h.toNat / 256 % 256)).toNat
      + 65536 * (byteOf (h.toNat / 65536)).toNat) = h := by
  have hh := h.isLt
  rw [byteOf_toNat (by omega), byteOf_toNat (by omega), byteOf_toNat (by omega)]
  have hsum : h.toNat % 256 + 256 * (h.toNat / 256 % 256) + 65536 * (h.toNat / 65536) = h.toNat := by omega
  rw [hsum, BitVec.ofNat_toNat, BitVec.setWidth_eq]

/-- One byte holds a set of the six roles. -/
theorem ofNat_byteOf_toNat (b : BitVec 6) : BitVec.ofNat 6 (byteOf b.toNat).toNat = b := by
  rw [byteOf_toNat (by have := b.isLt; omega), BitVec.ofNat_toNat, BitVec.setWidth_eq]

/-- The content of a STATUS is read as it was written. -/
theorem statusAt_encode (sender : Nat) {c : StatusContent} (h : (Payload.status c).wf) :
    statusAt (encode sender (.status c)) = c := by
  obtain ⟨hseq, hscene, hs0, hs1, hs2⟩ := h
  obtain ⟨hmodeByte, hseqRead, hmode⟩ := StatusContent.modeByte_read hseq
  obtain ⟨hflags, hocc, hun, hconf, hclash, hveh, hlevel⟩ := c.flags_read
  have h0 : (encode sender (.status c)).byte 0 = c.modeByte := byteOf_toNat hmodeByte
  have h1 : (encode sender (.status c)).byte 1 = c.flags := byteOf_toNat hflags
  have hmiss : BitVec.ofNat 6 ((encode sender (.status c)).byte 2) = c.missSet := ofNat_byteOf_toNat c.missSet
  have hhold : BitVec.ofNat 24 ((encode sender (.status c)).byte 3 + 256 * (encode sender (.status c)).byte 4
      + 65536 * (encode sender (.status c)).byte 5) = c.holdSet := holdSet_bytes c.holdSet
  have h6 : (encode sender (.status c)).byte 6 % 16 = c.scene :=
    (congrArg (· % 16) (byteOf_toNat (by omega))).trans (Nat.mod_eq_of_lt hscene)
  have hslot0 : slotAt (encode sender (.status c)) 8 = c.slots.s0 := slotAt_of_slotBytes hs0 rfl
  have hslot1 : slotAt (encode sender (.status c)) 13 = c.slots.s1 := slotAt_of_slotBytes hs1 rfl
  have hslot2 : slotAt (encode sender (.status c)) 18 = c.slots.s2 := slotAt_of_slotBytes hs2 rfl
  simp only [statusAt, h0, h1, h6, hseqRead, hmode, modeOf_quiet, hocc, hun, hconf, hclash, hveh, hlevel, hmiss, hhold, hslot0, hslot1,
    hslot2]

/-! ### Every payload -/

/-- What a receiver reads from an encoded frame is the payload, kind by kind (R159). -/
theorem payload_encode {sender : Nat} {p : Payload} (hs : sender < 8) (h : p.wf) : payload (encode sender p) = p := by
  have hkind := encode_kind hs p
  cases p with
  | stop scope =>
    rw [payload_stop hkind]
    exact congrArg Payload.stop (ofNat_byteOf_toNat scope)
  | stake pair =>
    rw [payload_stake hkind]
    exact congrArg Payload.stake (byteOf_toNat h)
  | claim pair standing =>
    obtain ⟨hpair, hstanding⟩ := h
    obtain ⟨x, rfl⟩ := Option.isSome_iff_exists.mp hstanding
    have hcode : standingOf (byteOf (standingCode x)).toNat = some x := by
      rw [byteOf_toNat (by cases x <;> decide), standingOf_standingCode]
    rw [payload_claim hkind]
    exact congrArg₂ Payload.claim (byteOf_toNat hpair) hcode
  | cede pair =>
    rw [payload_cede hkind]
    exact congrArg Payload.cede (byteOf_toNat h)
  | decline pair reason =>
    obtain ⟨hpair, hreason⟩ := h
    obtain ⟨x, rfl⟩ := Option.isSome_iff_exists.mp hreason
    have hcode : reasonOf (byteOf (reasonCode x)).toNat = some x := by
      rw [byteOf_toNat (by cases x <;> decide), reasonOf_reasonCode]
    rw [payload_decline hkind]
    exact congrArg₂ Payload.decline (byteOf_toNat hpair) hcode
  | scene id scope =>
    have hid : (byteOf id).toNat % 16 = id := by
      rw [byteOf_toNat (Nat.lt_trans h (by decide)), Nat.mod_eq_of_lt h]
    rw [payload_scene hkind]
    exact congrArg₂ Payload.scene hid (ofNat_byteOf_toNat scope)
  | learn role slot =>
    obtain ⟨hrole, hslot⟩ := h
    rw [payload_learn hkind]
    exact congrArg₂ Payload.learn (byteOf_toNat hrole) (byteOf_toNat hslot)
  | vehicle speed park =>
    obtain ⟨x, rfl⟩ := Option.isSome_iff_exists.mp h
    have hcode : speedOf (byteOf (speedCode x)).toNat = some x := by
      rw [byteOf_toNat (by cases x <;> decide), speedOf_speedCode]
    have hpark : bitOf (byteOf park.toNat).toNat 0 = park := by cases park <;> rfl
    rw [payload_vehicle hkind]
    exact congrArg₂ Payload.vehicle hcode hpark
  | status c =>
    rw [payload_status hkind, statusAt_encode sender h]
  | result c =>
    obtain ⟨hid, hreq, ho0, ho1, ho2, hr0, hr1, hr2⟩ := h
    rw [payload_result hkind]
    simp only [encode, Frame.byte, List.getD_cons_zero, List.getD_cons_succ, byteOf_toNat, *]
  | unknown => exact h.elim

/-- Settles O40: identifier and data bytes are read back apart, and the filter asks no more than a layout gives. -/
theorem frameRoundTrip : Obligations.FrameRoundTrip := fun _ p hs h =>
  ⟨payload_encode hs h, encode_sender hs p, fun h6 => passesFilter_encode hs h6 h⟩

end Sys2Proof.Machine
end

section
/-! PROOFS. O4, O9 and O56: the station under reset, and the stores through a loss of their supplies. -/

namespace Sys2Proof.Machine

/-! ### The station under reset (R161) -/

@[simp] theorem State.underReset_drive (x : Rcs) (q : List Instr) (sl : Slot) : (State.underReset x q).drive sl = .blank :=
  PerSlot.get_all _ sl

/-- With no role latched no slot holds an axis, and with no view no pair stands twice. -/
theorem State.underReset_envelopesSound (x : Rcs) (q : List Instr) : (State.underReset x q).EnvelopesSound :=
  ⟨List.nodup_nil, fun _ hkind => nomatch hkind⟩

/-- A store is true to a station under reset where no calibration write is in progress (R165). -/
theorem State.underReset_storesSound {x : Rcs} (hw : ∀ sl, x.writing.get sl = none) (q : List Instr) :
    (State.underReset x q).StoresSound := fun sl =>
  ⟨fun hkind => (nomatch hkind), fun hwriting => by
    have hnone : (State.underReset x q).rcs.writing.get sl = none := hw sl
    simp [hnone] at hwriting⟩

/-- Settles O4: the station is that under reset, over the store with its write broken off. -/
theorem resetAssertionKeepsStores : Obligations.ResetAssertionKeepsStores := fun s =>
  ⟨State.underReset s.rcs.broken s.pending, rfl, rfl, rfl, rfl, fun sl => by simp [Drive.blank], rfl, rfl, rfl, rfl, rfl⟩

/-- Settles O9: the marker is the one field that the loss writes. -/
theorem supplyLossClearsMarker : Obligations.SupplyLossClearsMarker := fun _ => rfl

/-- Settles O56: the state after power-on is a station under reset, whose store has no write in progress. -/
theorem resetMeetsInvariants : Obligations.ResetMeetsInvariants := by
  obtain ⟨hsupply, hrecovery⟩ := State.underReset_supplyRules Rcs.initial []
  obtain ⟨hbus, hpeers⟩ := State.underReset_bounded Rcs.initial []
  exact ⟨DrivesSound.underReset _ _, hsupply, hrecovery, State.underReset_envelopesSound _ _, hbus, hpeers,
    State.underReset_storesSound (PerSlot.get_all none) _⟩

end Sys2Proof.Machine
end

section
/-! PROOFS. O7: the entry into SYNC, and the first STATUS. -/

namespace Sys2Proof.Machine

/-! ### Masks with no bit set (R73, R155) -/

/-- A mask that no element of a list sets a bit of is as it began. -/
theorem foldl_setBits_none {α : Type} {n : Nat} {P : α → Bool} {l : List α} (h : ∀ x ∈ l, P x = false) (bit : α → Nat)
    (m : BitVec n) : l.foldl (fun m x => if P x then m ||| BitVec.ofNat n (2 ^ bit x) else m) m = m :=
  BitVec.eq_of_getLsbD_eq fun k hk => by
    rw [Bool.eq_iff_iff, foldl_setBits hk]
    exact or_iff_left fun ⟨x, hx, hP, _⟩ => by simp [h x hx] at hP

theorem State.holdSet_of_barred {s : State} (h : ∀ v ∈ s.clu.views, v.state = .barred) : s.holdSet = 0 :=
  foldl_setBits_none (P := fun v : View => v.peerRole.isSome && (v.state == .own || v.state == .ownWait))
    (fun v hv => by simp [h v hv]) View.pair 0

/-- An ABSENT record is in the miss set in RUN alone (R73). -/
theorem State.missSet_of_absent {s : State} (h : ∀ p ∈ s.pmon.peers, p.state = .absent) (hrun : s.station ≠ .run) : s.missSet = 0 :=
  foldl_setBits_none (P := fun p : PeerRec => p.state == .lost || (s.station == .run && p.state == .absent))
    (fun p hp => by simp [h p hp, hrun]) (fun p => roleCode p.role) 0

/-! ### The interval of an IDLE axis (R17 to R20) -/

/-- With no reach the reach count is the count, whatever the envelope. -/
theorem reachCount_zero (e : Envelope) (dir : Dir) (c : Int) : reachCount e dir c 0 = c := by
  cases e <;> cases dir <;> simp [reachCount]

theorem clampInt_of_nonneg {x : Int} (hx : 0 ≤ x) : clampInt 0 1000 x = min 1000 x := max_eq_right (le_min (by decide) hx)

/-- The interval of a count without reach is its static interval, held to 1000 alone. -/
theorem occupiedInterval_static {c S : Int} (hc : 0 ≤ c) (hS : 0 < S) :
    occupiedInterval c c S = ⟨min 1000 (c * 1000 / S), min 1000 (-(-(c * 1000) / S))⟩ := by
  have hlow : 0 ≤ floorDiv (c * 1000) S := Int.ediv_nonneg (by omega) hS.le
  have hhigh : 0 ≤ ceilDiv (c * 1000) S := neg_nonneg.mpr (Int.ediv_nonpos_of_nonpos_of_neg (by omega) hS)
  rw [occupiedInterval, min_self, max_self, clampInt_of_nonneg hlow, clampInt_of_nonneg hhigh]
  rfl

theorem Drive.span_pos_of_hasRange {d : Drive} (h : d.hasRange = true) : 0 < d.span := by
  simp only [Drive.hasRange, Bool.and_eq_true, bne_iff_ne] at h
  exact Nat.pos_of_ne_zero h.2

/-- The interval that an IDLE axis advertises: that of its count, and the whole travel without a position (R6, R20). -/
theorem State.occupiedAt_idle {s : State} {sl : Slot} (hk : (s.kindAt sl).isSome = true) (hidle : (s.drive sl).axis = .idle) :
    s.occupiedAt sl =
      if (s.drive sl).hasRange = true then
        ⟨min 1000 (((s.drive sl).count : Int) * 1000 / (s.drive sl).span),
          min 1000 (-(-(((s.drive sl).count : Int) * 1000) / (s.drive sl).span))⟩
      else ⟨0, 1000⟩ := by
  obtain ⟨k, hk⟩ := Option.isSome_iff_exists.mp hk
  have hbound : reachBound k (s.drive sl).axis (s.drive sl).lock (s.drive sl).vset = 0 := by rw [hidle]; rfl
  simp only [State.occupiedAt, hk, hbound, reachCount_zero]
  by_cases hrange : (s.drive sl).hasRange = true
  · have hS : (0 : Int) < (s.drive sl).span := Int.natCast_pos.mpr (Drive.span_pos_of_hasRange hrange)
    rw [if_pos hrange, if_pos hrange, occupiedInterval_static (Int.natCast_nonneg _) hS]
  · rw [if_neg hrange, if_neg hrange, wholeTravel]

theorem State.slotStatus_none {s : State} {sl : Slot} (h : s.kindAt sl = none) : (s.slotStatus sl).axis = .noAxis := by
  rw [State.slotStatus, h]

/-! ### Entry into SYNC (R168) -/

/-- The station that has joined the bus, with its envelopes built and no STATUS yet. -/
def State.joined (s : State) : State :=
  State.buildEnvelopes
    { s with
      station := .sync, syncTimer := some 500
      bus := { rx := [], status := none, statusBeside := none, general := [], attempt := none, errors := 0, busOff := none } }

theorem State.enterSync_eq (s : State) : s.enterSync = s.joined.sendStatus := rfl

/-- From START, with the first supply sample taken, SYNC_ENTRY builds the first STATUS of the station that has joined. -/
theorem exec_syncEntry {s : State} (hst : s.station = .start) (hlevel : s.smon.level ≠ .unknown) :
    exec .syncEntry s = .next s.joined.sendStatus := by
  show execSyncEntry s = _
  rw [execSyncEntry, if_pos ⟨hst, hlevel⟩, State.enterSync_eq]

/-- What SYNC entry leaves on the bus interface: the first STATUS, and nothing else. -/
theorem State.joined_sendStatus_bus {s : State} {r : Role} (hr : s.role = some r) :
    s.joined.sendStatus.bus =
      { rx := [], status := some (encode (roleCode r) (.status s.joined.statusContent)), statusBeside := none, general := []
        attempt := none, errors := 0, busOff := none } := by
  have hsender : s.joined.sender = roleCode r := State.sender_of_role hr
  rw [State.sendStatus, hsender]
  rfl

/-- The only frame held is the one that an attempt offers (R147, R151). -/
theorem State.attempt_only {t : State} {f : Frame} (hst : t.station = .sync)
    (hbus : t.bus = { rx := [], status := some f, statusBeside := none, general := [], attempt := none, errors := 0, busOff := none }) :
    exec .transmissionAttempt t = .next { t with bus := { t.bus with attempt := some f } } := by
  have hopen : t.busOpen = true := t.busOpen_iff.mpr ⟨.inl hst, by rw [hbus]⟩
  have hroom : t.bus.rx.length < 8 := by rw [hbus]; exact Nat.zero_lt_succ 7
  have hoffered : lowestFrame (t.bus.general ++ t.bus.status.toList) = some f := by rw [hbus]; rfl
  rw [execTransmissionAttempt_idle (by rw [hbus]), if_pos ⟨hopen, hroom⟩, hoffered]

/-- The first STATUS has taken sequence 0, and the fast period runs (R142, R155). -/
theorem State.joined_sendStatus_pmon {s : State} (hseq : s.pmon.seq = 0) (hmode : s.amon.mode = .active) :
    s.joined.sendStatus.pmon = { s.pmon with seq := 1, statusTimer := some 20 } := by
  have hnext : (s.joined.pmon.seq + 1) % 16 = 1 := by rw [show s.joined.pmon.seq = 0 from hseq]
  have hperiod : statusPeriod s.joined.amon.mode = 20 := by rw [show s.joined.amon.mode = .active from hmode]; rfl
  rw [State.sendStatus, hnext, hperiod]
  rfl

/-- Settles O7: the first STATUS is `State.statusContent` of the station that has joined the bus, whose masks are empty since its views
are BARRED and its peers ABSENT, and whose intervals are static since its axes are IDLE. -/
theorem syncEntryBuildsFirstStatus : Obligations.SyncEntryBuildsFirstStatus := by
  intro s r hst hr hlevel hseq hmode hbarred habsent hidle
  have hbus := State.joined_sendStatus_bus hr
  refine ⟨s.joined.sendStatus, _, s.joined.statusContent, exec_syncEntry hst hlevel, rfl, rfl, hbus, ?_, State.attempt_only rfl hbus, rfl,
    hseq, hmode, State.holdSet_of_barred hbarred, State.missSet_of_absent habsent Station.noConfusion,
    fun sl => ⟨fun hk => ?_, fun hk => ?_⟩, State.joined_sendStatus_pmon hseq hmode, rfl, rfl, rfl, rfl, rfl, rfl, rfl, rfl, rfl, rfl⟩
  · rw [State.receiving, hbus]
    rfl
  · rw [State.statusContent, PerSlot.get_tabulate]
    exact State.slotStatus_none hk
  · rw [State.statusContent, PerSlot.get_tabulate, State.slotStatus_some (s := s.joined) hk]
    exact ⟨hidle sl hk, State.occupiedAt_idle (s := s.joined) hk (hidle sl hk)⟩

end Sys2Proof.Machine
end

section
/-! PROOFS. What one step does, by the two forms of the queue of waiting commands (95_what_each_step_holds). -/

namespace Sys2Proof.Machine
/-! ### One step, by the form of the queue -/

/-- With a command at the front, one step is that command run over the queue's rest. -/
theorem step_of_front {s : State} {c : Instr} {q : List Instr} (hfront : s.pending = c :: q) :
    step s = exec c (s.withPending q) := by
  rw [step, hfront]

/-- With no command waiting, one step leaves the state as it is. -/
theorem step_of_empty {s : State} (hempty : s.pending = []) : step s = .next s := by
  rw [step, hempty]

/-- Settles O1: a step takes the command off the front, and `State.withPending` writes the queue and nothing else. -/
theorem stepRunsFrontCommand : Obligations.StepRunsFrontCommand :=
  fun _ _ _ hfront => step_of_front hfront

/-- Settles O2: the branch of the empty queue, which runs no command. -/
theorem emptyQueueIdles : Obligations.EmptyQueueIdles :=
  fun _ hempty => step_of_empty hempty

end Sys2Proof.Machine
end
